-- ==== Sys2Proof/Word.lean ====
section
/-! DEFINITION. The word types of the core and their plainest arithmetic (spec/00_scope.md R8, R9, R10). -/

namespace Sys2Proof

/-- A `u8` of the spec (R10): a register, a timer, a memory cell. -/
abbrev Byte := BitVec 8

/-- A `u16` of the spec (R10): the program counter, the index register, a stack entry, an instruction word. -/
abbrev Word := BitVec 16

/-- A `u12` of the spec (R10): the composite field `NNN` of an instruction word. -/
abbrev Addr12 := BitVec 12

/-- A register index or key code: a 4-bit field, every value 0..15 legal (R14, R21, R52). -/
abbrev Nibble := Fin 16

/-- `bool_to_u8` of R10. -/
def boolToByte (b : Bool) : Byte := if b then 1 else 0

end Sys2Proof
end

