-- ==== Sys2Proof/Config.lean ====
section
/-! DEFINITION. The configuration record, fixed at construction (spec/00_scope.md R6, R7), and the one free value
of the model. -/

namespace Sys2Proof

/-- The two behaviours of an access to an address of 4096 or more (R7, R37). -/
inductive MemOob where
  | fault
  | wrap
  deriving DecidableEq, Repr

/-- The configuration record. The first four fields are the quirks of R6, the last five the parameters of R7.
The default of each field is the default the spec gives it. -/
structure Config where
  /-- `assign_before_shift`: 8XY6 / 8XYE first copy VY into VX. -/
  assignBeforeShift : Bool := false
  /-- `increment_index_on_block_transfer`: FX55 / FX65 advance I by X + 1. -/
  incrementIndexOnBlockTransfer : Bool := false
  /-- `flag_index_overflow`: FX1E writes VF from I > 0x0FFF. -/
  flagIndexOverflow : Bool := true
  /-- `jump_offset_uses_vx`: BNNN adds VX (X = bits 11:8) instead of V0. -/
  jumpOffsetUsesVx : Bool := false
  /-- `mem_oob`: what an access to an address of 4096 or more does. -/
  memOob : MemOob := .fault
  /-- `stack_limit`: the depth at which a call faults; `none` is the unbounded stack. -/
  stackLimit : Option Nat := none
  /-- `font_base`: where the font table lies and what FX29 adds. -/
  fontBase : Addr12 := 0x050
  /-- `font_loaded`: whether construction writes the font table into memory. -/
  fontLoaded : Bool := true
  /-- `fx1e_clears_vf`: FX1E with `flag_index_overflow` writes 0 to VF when I ≤ 0x0FFF. -/
  fx1eClearsVf : Bool := true
  deriving DecidableEq, Repr

/-- Every field at the default of R6 and R7. -/
def Config.default : Config := {}

/-- FREE VALUE. The random byte of a cycle for which the environment's list in State supplies none: nothing
constrains it (R93: "a free input of each cycle, under no law"). The argument is the counter `State.draws`.
DESIGN CHOICE, log entry 3. -/
opaque Config.freeByte : Nat → Byte

end Sys2Proof
end

