-- ==== Sys2Proof/Syntax.lean ====
section
/-! DEFINITION. The 34 instructions, one constructor per row of spec/opcode_table.json and in its order
(spec/30_encoding.md R54). Fields are those of R51: `x`, `y` register indices, `nn` the 8-bit immediate, `nnn` the
12-bit address, `n` the low nibble. -/

namespace Sys2Proof

inductive Instr where
  /-- 00E0 CLS (R101) -/
  | cls
  /-- 00EE RET (R73) -/
  | ret
  /-- 1NNN JP NNN (R74) -/
  | jp (nnn : Addr12)
  /-- 2NNN CALL NNN (R75) -/
  | call (nnn : Addr12)
  /-- 3XNN SE VX, NN (R77) -/
  | seImm (x : Nibble) (nn : Byte)
  /-- 4XNN SNE VX, NN (R78) -/
  | sneImm (x : Nibble) (nn : Byte)
  /-- 5XY0 SE VX, VY (R79) -/
  | seReg (x y : Nibble)
  /-- 6XNN LD VX, NN (R82) -/
  | ldImm (x : Nibble) (nn : Byte)
  /-- 7XNN ADD VX, NN (R83) -/
  | addImm (x : Nibble) (nn : Byte)
  /-- 8XY0 LD VX, VY (R84) -/
  | ldReg (x y : Nibble)
  /-- 8XY1 OR VX, VY (R85) -/
  | orReg (x y : Nibble)
  /-- 8XY2 AND VX, VY (R86) -/
  | andReg (x y : Nibble)
  /-- 8XY3 XOR VX, VY (R87) -/
  | xorReg (x y : Nibble)
  /-- 8XY4 ADD VX, VY (R88) -/
  | addReg (x y : Nibble)
  /-- 8XY5 SUB VX, VY (R89) -/
  | sub (x y : Nibble)
  /-- 8XY6 SHR VX (, VY) (R90) -/
  | shr (x y : Nibble)
  /-- 8XY7 SUBN VX, VY (R91) -/
  | subn (x y : Nibble)
  /-- 8XYE SHL VX (, VY) (R92) -/
  | shl (x y : Nibble)
  /-- 9XY0 SNE VX, VY (R80) -/
  | sneReg (x y : Nibble)
  /-- ANNN LD I, NNN (R95) -/
  | ldI (nnn : Addr12)
  /-- BNNN JP V0, NNN (R76) -/
  | jpOff (nnn : Addr12)
  /-- CXNN RND VX, NN (R93) -/
  | rnd (x : Nibble) (nn : Byte)
  /-- DXYN DRW VX, VY, N (R102) -/
  | drw (x y n : Nibble)
  /-- EX9E SKP VX (R104) -/
  | skp (x : Nibble)
  /-- EXA1 SKNP VX (R105) -/
  | sknp (x : Nibble)
  /-- FX07 LD VX, DT (R107) -/
  | ldVxDt (x : Nibble)
  /-- FX0A LD VX, K (R106) -/
  | ldVxK (x : Nibble)
  /-- FX15 LD DT, VX (R108) -/
  | ldDtVx (x : Nibble)
  /-- FX18 LD ST, VX (R109) -/
  | ldStVx (x : Nibble)
  /-- FX1E ADD I, VX (R96) -/
  | addI (x : Nibble)
  /-- FX29 LD F, VX (R97) -/
  | ldF (x : Nibble)
  /-- FX33 LD B, VX (R98) -/
  | ldB (x : Nibble)
  /-- FX55 LD [I], VX (R99) -/
  | store (x : Nibble)
  /-- FX65 LD VX, [I] (R100) -/
  | load (x : Nibble)
  deriving DecidableEq, Repr

end Sys2Proof
end

