-- ==== Sys2Proof/WellFormed.lean ====
section
/-! DEFINITION. What makes a configuration, a program image and an instruction well formed. -/

namespace Sys2Proof

/-- The font table must fit in memory: `font_base` + 80 ≤ 4096 (spec/00_scope.md R7). -/
def Config.fontFits (c : Config) : Bool := decide (c.fontBase.toNat + 80 ≤ 4096)

/-- `stack_limit` is "none or a natural n ≥ 1" (R7). -/
def Config.limitPositive (c : Config) : Bool :=
  match c.stackLimit with
  | none => true
  | some n => decide (1 ≤ n)

/-- A configuration the core may be constructed with (R7). -/
def Config.wellFormed (c : Config) : Bool := c.fontFits && c.limitPositive

/-- An image that fits between 0x200 and the end of memory (spec/70_reset_and_hazards.md R125). -/
def imageFits (image : List Byte) : Bool := decide (image.length ≤ 3584)

/-- Every term of `Instr` is an instruction the encoding admits, so nothing is left to check: the bound of each field
(R52: `X`, `Y`, `N` in 0..15, `NN` in 0..255, `NNN` in 0..4095) is the field's type, and there is no relation between
fields. An ill-formed instruction cannot be written down. -/
def Instr.wellFormed (_ : Instr) : Bool := true

end Sys2Proof
end

