-- ==== Sys2Proof/Decode.lean ====
section
/-! DEFINITION. The decoder, the encoder and the opcode table (spec/30_encoding.md R51–R61). Bit 0 of a word is its
least significant bit; the word is stored high byte first (R41, R53). -/

namespace Sys2Proof

/-! ## Fields of a word (R51) -/

/-- The family nibble, bits 15..12. -/
def opField (w : Word) : BitVec 4 := w.extractLsb' 12 4
/-- `X`, bits 11..8. -/
def xField (w : Word) : Nibble := (w.extractLsb' 8 4).toFin
/-- `Y`, bits 7..4. -/
def yField (w : Word) : Nibble := (w.extractLsb' 4 4).toFin
/-- `N`, bits 3..0. -/
def nField (w : Word) : Nibble := (w.extractLsb' 0 4).toFin
/-- `NN`, bits 7..0. -/
def nnField (w : Word) : Byte := w.extractLsb' 0 8
/-- `NNN`, bits 11..0. -/
def nnnField (w : Word) : Addr12 := w.extractLsb' 0 12

/-- A big-endian pair of bytes as a word: the first byte is bits 15..8 (R41). -/
def wordOfBytes (hi lo : Byte) : Word := hi ++ lo
/-- The byte of a word that lies at the lower address (R41). -/
def highByte (w : Word) : Byte := w.extractLsb' 8 8
/-- The byte of a word that lies at the higher address (R41). -/
def lowByte (w : Word) : Byte := w.extractLsb' 0 8

/-! ## Decoding -/

/-- Why a word is unrecognized: the family whose sub-field holds no code (R55–R59), or too few bytes. -/
inductive Unrecognized where
  /-- `0x0NNN` other than 00E0 and 00EE (R55) -/
  | family0
  /-- `0x5XYN` with N ≠ 0 (R56) -/
  | family5
  /-- `0x8XYN` with N in 8..D or F (R57) -/
  | family8
  /-- `0x9XYN` with N ≠ 0 (R56) -/
  | family9
  /-- `0xEXNN` with NN neither 9E nor A1 (R58) -/
  | familyE
  /-- `0xFXNN` with NN none of the nine codes (R59) -/
  | familyF
  /-- fewer than two bytes were given: a word is always 2 bytes (R61) -/
  | truncated
  deriving DecidableEq, Repr

/-- Family 0 decodes on all 12 low bits (R55). -/
def decodeFamily0 (w : Word) : Except Unrecognized Instr :=
  match (nnnField w).toNat with
  | 0x0E0 => .ok .cls
  | 0x0EE => .ok .ret
  | _ => .error .family0

/-- Families 5 and 9 decode only with N = 0 (R56). -/
def decodeZeroN (w : Word) (i : Instr) (e : Unrecognized) : Except Unrecognized Instr :=
  match (nField w).val with
  | 0 => .ok i
  | _ => .error e

/-- Family 8 decodes on N (R57). -/
def decodeFamily8 (w : Word) : Except Unrecognized Instr :=
  match (nField w).val with
  | 0x0 => .ok (.ldReg (xField w) (yField w))
  | 0x1 => .ok (.orReg (xField w) (yField w))
  | 0x2 => .ok (.andReg (xField w) (yField w))
  | 0x3 => .ok (.xorReg (xField w) (yField w))
  | 0x4 => .ok (.addReg (xField w) (yField w))
  | 0x5 => .ok (.sub (xField w) (yField w))
  | 0x6 => .ok (.shr (xField w) (yField w))
  | 0x7 => .ok (.subn (xField w) (yField w))
  | 0xE => .ok (.shl (xField w) (yField w))
  | _ => .error .family8

/-- Family E decodes on NN (R58). -/
def decodeFamilyE (w : Word) : Except Unrecognized Instr :=
  match (nnField w).toNat with
  | 0x9E => .ok (.skp (xField w))
  | 0xA1 => .ok (.sknp (xField w))
  | _ => .error .familyE

/-- Family F decodes on NN (R59). -/
def decodeFamilyF (w : Word) : Except Unrecognized Instr :=
  match (nnField w).toNat with
  | 0x07 => .ok (.ldVxDt (xField w))
  | 0x0A => .ok (.ldVxK (xField w))
  | 0x15 => .ok (.ldDtVx (xField w))
  | 0x18 => .ok (.ldStVx (xField w))
  | 0x1E => .ok (.addI (xField w))
  | 0x29 => .ok (.ldF (xField w))
  | 0x33 => .ok (.ldB (xField w))
  | 0x55 => .ok (.store (xField w))
  | 0x65 => .ok (.load (xField w))
  | _ => .error .familyF

/-- The decoder of R54: the top nibble selects a family, families 0, 5, 8, 9, E and F look further. The last arm is
nibble 0xF, the only one the fifteen before it leave. -/
def decode (w : Word) : Except Unrecognized Instr :=
  match (opField w).toNat with
  | 0x0 => decodeFamily0 w
  | 0x1 => .ok (.jp (nnnField w))
  | 0x2 => .ok (.call (nnnField w))
  | 0x3 => .ok (.seImm (xField w) (nnField w))
  | 0x4 => .ok (.sneImm (xField w) (nnField w))
  | 0x5 => decodeZeroN w (.seReg (xField w) (yField w)) .family5
  | 0x6 => .ok (.ldImm (xField w) (nnField w))
  | 0x7 => .ok (.addImm (xField w) (nnField w))
  | 0x8 => decodeFamily8 w
  | 0x9 => decodeZeroN w (.sneReg (xField w) (yField w)) .family9
  | 0xA => .ok (.ldI (nnnField w))
  | 0xB => .ok (.jpOff (nnnField w))
  | 0xC => .ok (.rnd (xField w) (nnField w))
  | 0xD => .ok (.drw (xField w) (yField w) (nField w))
  | 0xE => decodeFamilyE w
  | _ => decodeFamilyF w

/-- The decoder on a stream of bytes: the instruction and the bytes after it, or the reason there is none. -/
def decodeBytes : List Byte → Except Unrecognized (Instr × List Byte)
  | hi :: lo :: rest => (decode (wordOfBytes hi lo)).map fun i => (i, rest)
  | _ => .error .truncated

/-- The instruction the decoder reads from the table word `w` of `nbits` bits, laid out high byte first. -/
def decodeTableWord (nbits w : Nat) : Option Instr :=
  let word : Word := BitVec.ofNat 16 (w % 2 ^ nbits)
  match decodeBytes [highByte word, lowByte word] with
  | .ok (i, _) => some i
  | .error _ => none

/-! ## Encoding -/

/-- A word from its four nibbles (R51). -/
def ofNibbles (op x y n : Nat) : Word := BitVec.ofNat 16 (op * 0x1000 + x * 0x100 + y * 0x10 + n)
/-- A word from its family, `X` and `NN` (R51). -/
def ofXNN (op x nn : Nat) : Word := BitVec.ofNat 16 (op * 0x1000 + x * 0x100 + nn)
/-- A word from its family and `NNN` (R51). -/
def ofNNN (op nnn : Nat) : Word := BitVec.ofNat 16 (op * 0x1000 + nnn)

/-- The word of an instruction, from the `pattern` column of R54. -/
def encode : Instr → Word
  | .cls => 0x00E0
  | .ret => 0x00EE
  | .jp nnn => ofNNN 0x1 nnn.toNat
  | .call nnn => ofNNN 0x2 nnn.toNat
  | .seImm x nn => ofXNN 0x3 x nn.toNat
  | .sneImm x nn => ofXNN 0x4 x nn.toNat
  | .seReg x y => ofNibbles 0x5 x y 0x0
  | .ldImm x nn => ofXNN 0x6 x nn.toNat
  | .addImm x nn => ofXNN 0x7 x nn.toNat
  | .ldReg x y => ofNibbles 0x8 x y 0x0
  | .orReg x y => ofNibbles 0x8 x y 0x1
  | .andReg x y => ofNibbles 0x8 x y 0x2
  | .xorReg x y => ofNibbles 0x8 x y 0x3
  | .addReg x y => ofNibbles 0x8 x y 0x4
  | .sub x y => ofNibbles 0x8 x y 0x5
  | .shr x y => ofNibbles 0x8 x y 0x6
  | .subn x y => ofNibbles 0x8 x y 0x7
  | .shl x y => ofNibbles 0x8 x y 0xE
  | .sneReg x y => ofNibbles 0x9 x y 0x0
  | .ldI nnn => ofNNN 0xA nnn.toNat
  | .jpOff nnn => ofNNN 0xB nnn.toNat
  | .rnd x nn => ofXNN 0xC x nn.toNat
  | .drw x y n => ofNibbles 0xD x y n
  | .skp x => ofXNN 0xE x 0x9E
  | .sknp x => ofXNN 0xE x 0xA1
  | .ldVxDt x => ofXNN 0xF x 0x07
  | .ldVxK x => ofXNN 0xF x 0x0A
  | .ldDtVx x => ofXNN 0xF x 0x15
  | .ldStVx x => ofXNN 0xF x 0x18
  | .addI x => ofXNN 0xF x 0x1E
  | .ldF x => ofXNN 0xF x 0x29
  | .ldB x => ofXNN 0xF x 0x33
  | .store x => ofXNN 0xF x 0x55
  | .load x => ofXNN 0xF x 0x65

/-- The two bytes of an instruction as they lie in memory, lower address first (R41). -/
def encodeBytes (i : Instr) : List Byte := [highByte (encode i), lowByte (encode i)]

/-! ## The opcode table -/

/-- A row of R54's table: a word matches it when `w & mask = match`. -/
structure OpcodeRow where
  /-- the row's mnemonic as spec/opcode_table.json spells it -/
  mnemonic : String
  mask : Word
  bits : Word
  deriving DecidableEq, Repr

/-- `w & mask = match` (R54). -/
def OpcodeRow.matchesWord (r : OpcodeRow) (w : Word) : Bool := w &&& r.mask == r.bits

/-- Rows 1 to 19 of R54. -/
def opcodeRowsLow : List OpcodeRow :=
  [⟨"CLS", 0xFFFF, 0x00E0⟩, ⟨"RET", 0xFFFF, 0x00EE⟩, ⟨"JP_NNN", 0xF000, 0x1000⟩, ⟨"CALL_NNN", 0xF000, 0x2000⟩,
   ⟨"SE_VX__NN", 0xF000, 0x3000⟩, ⟨"SNE_VX__NN", 0xF000, 0x4000⟩, ⟨"SE_VX__VY", 0xF00F, 0x5000⟩,
   ⟨"LD_VX__NN", 0xF000, 0x6000⟩, ⟨"ADD_VX__NN", 0xF000, 0x7000⟩, ⟨"LD_VX__VY", 0xF00F, 0x8000⟩,
   ⟨"OR_VX__VY", 0xF00F, 0x8001⟩, ⟨"AND_VX__VY", 0xF00F, 0x8002⟩, ⟨"XOR_VX__VY", 0xF00F, 0x8003⟩,
   ⟨"ADD_VX__VY", 0xF00F, 0x8004⟩, ⟨"SUB_VX__VY", 0xF00F, 0x8005⟩, ⟨"SHR_VX____VY", 0xF00F, 0x8006⟩,
   ⟨"SUBN_VX__VY", 0xF00F, 0x8007⟩, ⟨"SHL_VX____VY", 0xF00F, 0x800E⟩, ⟨"SNE_VX__VY", 0xF00F, 0x9000⟩]

/-- Rows 20 to 34 of R54. -/
def opcodeRowsHigh : List OpcodeRow :=
  [⟨"LD_I__NNN", 0xF000, 0xA000⟩, ⟨"JP_V0__NNN", 0xF000, 0xB000⟩, ⟨"RND_VX__NN", 0xF000, 0xC000⟩,
   ⟨"DRW_VX__VY__N", 0xF000, 0xD000⟩, ⟨"SKP_VX", 0xF0FF, 0xE09E⟩, ⟨"SKNP_VX", 0xF0FF, 0xE0A1⟩,
   ⟨"LD_VX__DT", 0xF0FF, 0xF007⟩, ⟨"LD_VX__K", 0xF0FF, 0xF00A⟩, ⟨"LD_DT__VX", 0xF0FF, 0xF015⟩,
   ⟨"LD_ST__VX", 0xF0FF, 0xF018⟩, ⟨"ADD_I__VX", 0xF0FF, 0xF01E⟩, ⟨"LD_F__VX", 0xF0FF, 0xF029⟩,
   ⟨"LD_B__VX", 0xF0FF, 0xF033⟩, ⟨"LD__I___VX", 0xF0FF, 0xF055⟩, ⟨"LD_VX___I", 0xF0FF, 0xF065⟩]

/-- The 34 rows of R54. -/
def opcodeTable : List OpcodeRow := opcodeRowsLow ++ opcodeRowsHigh

/-- The mnemonic, in spec/opcode_table.json's spelling, of an instruction's row. -/
def Instr.mnemonic : Instr → String
  | .cls => "CLS"
  | .ret => "RET"
  | .jp _ => "JP_NNN"
  | .call _ => "CALL_NNN"
  | .seImm _ _ => "SE_VX__NN"
  | .sneImm _ _ => "SNE_VX__NN"
  | .seReg _ _ => "SE_VX__VY"
  | .ldImm _ _ => "LD_VX__NN"
  | .addImm _ _ => "ADD_VX__NN"
  | .ldReg _ _ => "LD_VX__VY"
  | .orReg _ _ => "OR_VX__VY"
  | .andReg _ _ => "AND_VX__VY"
  | .xorReg _ _ => "XOR_VX__VY"
  | .addReg _ _ => "ADD_VX__VY"
  | .sub _ _ => "SUB_VX__VY"
  | .shr _ _ => "SHR_VX____VY"
  | .subn _ _ => "SUBN_VX__VY"
  | .shl _ _ => "SHL_VX____VY"
  | .sneReg _ _ => "SNE_VX__VY"
  | .ldI _ => "LD_I__NNN"
  | .jpOff _ => "JP_V0__NNN"
  | .rnd _ _ => "RND_VX__NN"
  | .drw _ _ _ => "DRW_VX__VY__N"
  | .skp _ => "SKP_VX"
  | .sknp _ => "SKNP_VX"
  | .ldVxDt _ => "LD_VX__DT"
  | .ldVxK _ => "LD_VX__K"
  | .ldDtVx _ => "LD_DT__VX"
  | .ldStVx _ => "LD_ST__VX"
  | .addI _ => "ADD_I__VX"
  | .ldF _ => "LD_F__VX"
  | .ldB _ => "LD_B__VX"
  | .store _ => "LD__I___VX"
  | .load _ => "LD_VX___I"

end Sys2Proof
end

