-- ==== Sys2Proof/Machine/State.lean ====
section
/-! DEFINITION. The state of the core (spec/10_state.md R13), the ways a step can stop, and the state after reset
(R34). Everything here is plain data. -/

namespace Sys2Proof.Machine

/-- An event of the inbound keyboard feed (R22, R29). Key codes outside 0x0..0xF are not representable. -/
inductive KeyEvent where
  | keyDown (k : Nibble)
  | keyUp (k : Nibble)
  | stop
  deriving DecidableEq, Repr

/-- An event of the outbound display feed (R28): a cell's new value, or a clear of the whole display. -/
inductive DisplayEvent where
  | set (index : Fin 2048) (value : Bool)
  | clear
  deriving DecidableEq, Repr

/-- The display's cells (R25): 32 rows from the top, each of 64 one-bit cells with column x at bit x, so that the cell
the spec numbers `x + 64·y` is bit x of row y. -/
abbrev Grid := Vector (BitVec 64) 32

/-- The three inputs of one cycle (spec/40_cycle.md R70): `tick` (R64), `events` (R65) and `rnd` (spec/42_alu.md R93). -/
structure CycleInput where
  tick : Bool
  events : List KeyEvent
  rnd : Byte
  deriving DecidableEq, Repr

/-- The six faults of spec/60_exceptions.md R110 with the info each records beside the word and the fetch address. -/
inductive FaultCause where
  /-- the fetched word matches no row of the opcode table; raised by the decode -/
  | unrecognizedOpcode
  /-- 00EE with an empty call stack -/
  | stackUnderflow
  /-- an effective address `a` ≥ 4096 with `mem_oob = fault`; raised by the fetch, DXYN, FX33, FX55, FX65 -/
  | memoryOutOfRange (a : Nat)
  /-- 2NNN with `stack_limit = some n` and n entries on the stack -/
  | stackOverflow
  /-- EX9E / EXA1 with V[X] > 0xF -/
  | keyOutOfRange (v : Byte)
  /-- FX29 with V[X] > 0xF -/
  | fontDigitOutOfRange (v : Byte)
  deriving DecidableEq, Repr

/-- The fault record of R112: `(code, info, w, pc_fetch)`, code and info together in `cause`. -/
structure FaultRecord where
  cause : FaultCause
  /-- the instruction word when the fetch succeeded -/
  word : Option Word
  /-- the address the word was fetched from -/
  pcFetch : Word
  deriving DecidableEq, Repr

/-- The state of the core. The components from `mem` to `fault` are those of R13 under its names. The first four
fields are not components of R13: the configuration, which is "a parameter of every step", and the environment's
inputs to the cycles to come (log entries 1, 2, 3). -/
structure State where
  /-- the configuration record; no step changes it (spec/00_scope.md R6) -/
  cfg : Config
  /-- the inputs of the cycles to come, the next cycle's first; no agent of the core writes it -/
  inputs : List CycleInput
  /-- the random byte of the current cycle (R93), set at the top of each cycle -/
  rnd : Byte
  /-- the counter of the free value `Config.freeByte`: how many cycles took their random byte from it -/
  draws : Nat
  /-- memory: the cells that differ from `background`, addresses strictly rising (`Memory.wf`) -/
  mem : List Host.Cell
  /-- V0..VF (R14) -/
  V : Vector Byte 16
  /-- the index register (R16) -/
  I : Word
  /-- the program counter (R17) -/
  pc : Word
  /-- the call stack; the last element is the top (R18) -/
  stack : List Word
  /-- the delay timer (R19) -/
  DT : Byte
  /-- the sound timer (R19) -/
  ST : Byte
  /-- the 16 press states (R21) -/
  keys : Vector Bool 16
  /-- the one-shot slot of the key last released (R21) -/
  released : Option Nibble
  /-- the Stop latch (R21) -/
  stop : Bool
  /-- the 64×32 grid of one-bit cells (R25) -/
  fb : Grid
  /-- the outbound display feed, oldest event first (R28) -/
  feed : List DisplayEvent
  /-- the fault record once a fault has been raised (R30) -/
  fault : Option FaultRecord
  deriving DecidableEq, Repr

/-- How a step can stop with a fault. -/
inductive Fault where
  /-- Raised by `step` on a state that holds a fault record, and by nothing else: "a core with `fault ≠ none` takes no
  further cycle" (R30). Exact by the spec, so safe. The six faults of R110 are no outcome of this kind: the cycle that
  raises one ends in a next state that holds the record (R69, R70). -/
  | coreStopped (r : FaultRecord)
  deriving DecidableEq, Repr

/-- How the machine can refuse. -/
inductive Refusal where
  /-- An instruction with no meaning yet; raised by `exec` only. No arm of this model raises it. Safe. -/
  | notModelled (mnemonic : String)
  /-- Raised by `construct` for a configuration that is not well formed ("a model refuses any other", R7). Safe. -/
  | malformedConfiguration
  /-- Raised by `construct` for an image longer than 3584 bytes ("construction is refused and no core exists", R125).
  Safe. -/
  | imageTooLong
  deriving DecidableEq, Repr

/-- The core after construction with the default configuration and the empty image (R34, R124): nothing is listed in
memory, whose unlisted cells read as construction left them (`background`). No input is queued (log entry 2), and the
free value's counter starts at 0 (DESIGN CHOICE, log entry 3). -/
def State.reset : State where
  cfg := Config.default
  inputs := []
  rnd := 0
  draws := 0
  mem := []
  V := Vector.replicate 16 0
  I := 0
  pc := 0x200
  stack := []
  DT := 0
  ST := 0
  keys := Vector.replicate 16 false
  released := none
  stop := false
  fb := Vector.replicate 32 0
  feed := []
  fault := none

end Sys2Proof.Machine
end

