-- ==== Sys2Proof/Machine/Ops.lean ====
section
/-! DEFINITION. The named operations over registers, memory, the stack, the keypad and the display; taking a fault;
and the parts of a cycle that come before the instruction (pacing, drain, fetch). -/

namespace Sys2Proof.Machine

/-! ## Registers (spec/10_state.md R14–R17) -/

/-- `V[r]` (R14). -/
def State.getV (s : State) (r : Nibble) : Byte := s.V[r.val]
/-- `V[r] <- b` (R14). -/
def State.setV (s : State) (r : Nibble) (b : Byte) : State := { s with V := s.V.set r.val b }
/-- `I <- w` (R16). -/
def State.setI (s : State) (w : Word) : State := { s with I := w }
/-- `pc <- w` (R17). -/
def State.setPc (s : State) (w : Word) : State := { s with pc := w }
/-- `DT <- b` (R19). -/
def State.setDT (s : State) (b : Byte) : State := { s with DT := b }
/-- `ST <- b` (R19). -/
def State.setST (s : State) (b : Byte) : State := { s with ST := b }

/-- The skip of spec/41_control.md R72: `pc <- pc +_16 2`. -/
def State.skip (s : State) : State := s.setPc (s.pc + 2)
/-- The rewind of spec/45_keypad_timers.md R106: `pc <- pc -_16 2`. -/
def State.rewind (s : State) : State := s.setPc (s.pc - 2)
/-- The fetch's advance (spec/40_cycle.md R66): `pc <- pc +_16 2`. -/
def State.advance (s : State) : State := s.setPc (s.pc + 2)

/-! ## Memory (spec/20_memory.md) -/

/-- The glyphs of digits 0 to 7 (spec/70_reset_and_hazards.md R126). -/
def fontLow : List Byte :=
  [0xF0, 0x90, 0x90, 0x90, 0xF0,  0x20, 0x60, 0x20, 0x20, 0x70,  0xF0, 0x10, 0xF0, 0x80, 0xF0,
   0xF0, 0x10, 0xF0, 0x10, 0xF0,  0x90, 0x90, 0xF0, 0x10, 0x10,  0xF0, 0x80, 0xF0, 0x10, 0xF0,
   0xF0, 0x80, 0xF0, 0x90, 0xF0,  0xF0, 0x10, 0x20, 0x40, 0x40]

/-- The glyphs of digits 8 to F (R126). -/
def fontHigh : List Byte :=
  [0xF0, 0x90, 0xF0, 0x90, 0xF0,  0xF0, 0x90, 0xF0, 0x10, 0xF0,  0xF0, 0x90, 0xF0, 0x90, 0x90,
   0xE0, 0x90, 0xE0, 0x90, 0xE0,  0xF0, 0x80, 0x80, 0x80, 0xF0,  0xE0, 0x90, 0x90, 0x90, 0xE0,
   0xF0, 0x80, 0xF0, 0x80, 0xF0,  0xF0, 0x80, 0xF0, 0x80, 0x80]

/-- The 80 bytes of `FONT` (R126). -/
def font : List Byte := fontLow ++ fontHigh

/-- What a cell that memory does not list reads as: what construction leaves there before the image is written, the
font table at `font_base` when `font_loaded`, and 0 elsewhere (R34, R44, R124). -/
def background (c : Config) (a : Nat) : Byte :=
  if c.fontLoaded = true ∧ c.fontBase.toNat ≤ a then font.getD (a - c.fontBase.toNat) 0 else 0

/-- The byte a list of cells holds at an address. -/
def lookupCell (a : Nat) : List Host.Cell → Option Byte
  | [] => none
  | (k, b) :: rest => if k = a then some b else lookupCell a rest

/-- The list without the cells at an address. -/
def eraseCell (a : Nat) (m : List Host.Cell) : List Host.Cell := m.filter fun p => p.1 != a

/-- The list with the cell at an address set, in rising order of addresses. -/
def insertCell (a : Nat) (b : Byte) : List Host.Cell → List Host.Cell
  | [] => [(a, b)]
  | (k, c) :: rest =>
    if a < k then (a, b) :: (k, c) :: rest
    else if a = k then (a, b) :: rest
    else (k, c) :: insertCell a b rest

/-- Addresses strictly rising. -/
def risingCells : List Host.Cell → Bool
  | [] => true
  | [_] => true
  | (a, _) :: (k, c) :: rest => decide (a < k) && risingCells ((k, c) :: rest)

/-- The canonical form of memory under a configuration: addresses strictly rising, every address a cell of memory
(R35), and no entry equal to what an unlisted cell reads as. -/
def Memory.wf (c : Config) (m : List Host.Cell) : Bool :=
  risingCells m && m.all fun p => decide (p.1 < 4096) && p.2 != background c p.1

/-- Reading cell `a`, for a < 4096. -/
def State.readCell (s : State) (a : Nat) : Byte := (lookupCell a s.mem).getD (background s.cfg a)

/-- Writing cell `a`, for a < 4096, keeping the canonical form. -/
def State.writeCell (s : State) (a : Nat) (b : Byte) : State :=
  if b = background s.cfg a then { s with mem := eraseCell a s.mem } else { s with mem := insertCell a b s.mem }

/-- Whether an access to an effective address goes ahead (R37). -/
def accessible (c : Config) (a : Nat) : Bool := decide (a < 4096) || c.memOob == .wrap

/-- The cell an effective address names: itself below 4096, and `a mod 4096` under `mem_oob = wrap` (R37). -/
def cellOf (a : Nat) : Nat := a % 4096

/-- The byte at an effective address that is accessible (R38). -/
def State.readByte (s : State) (a : Nat) : Byte := s.readCell (cellOf a)

/-- Storing a byte at an effective address that is accessible (R40). -/
def State.writeByte (s : State) (a : Nat) (b : Byte) : State := s.writeCell (cellOf a) b

/-- `MemRead(a, 1)` with its check (R37, R38). -/
def State.memRead (s : State) (a : Nat) : Except FaultCause Byte :=
  if accessible s.cfg a then .ok (s.readByte a) else .error (.memoryOutOfRange a)

/-- `MemRead(a, 2)` (R39): the byte at `a` is the high byte; each address is checked on its own, the lower one first. -/
def State.memReadWord (s : State) (a : Nat) : Except FaultCause Word :=
  match s.memRead a with
  | .error c => .error c
  | .ok hi =>
    match s.memRead (a + 1) with
    | .error c => .error c
    | .ok lo => .ok (wordOfBytes hi lo)

/-- The first address of a list that may not be accessed (R37, R113). -/
def firstOutOfRange (c : Config) (addrs : List Nat) : Option Nat := addrs.find? fun a => !accessible c a

/-- A sequence of byte writes, in the order of the list (R40). -/
def State.writeBytes : List (Nat × Byte) → State → State
  | [], s => s
  | (a, b) :: rest, s => State.writeBytes rest (s.writeByte a b)

/-- `V[k] <- MemRead(I + k, 1)` for each k of the list, in order (spec/43_index_memory.md R100). -/
def State.loadRegs : List Nibble → State → State
  | [], s => s
  | k :: rest, s => State.loadRegs rest (s.setV k (s.readByte (s.I.toNat + k.val)))

/-! ## Call stack (spec/10_state.md R18) -/

/-- Whether `Push` would raise `StackOverflow`: the limit is n and the stack holds n entries. -/
def State.stackFull (s : State) : Bool := s.cfg.stackLimit == some s.stack.length

/-- `Push(a)` on a stack that is not full: `a` is the new last element. -/
def State.push (s : State) (a : Word) : State := { s with stack := s.stack ++ [a] }

/-- `Pop()`: the last element and the state without it; none when the stack is empty. -/
def State.pop (s : State) : Option (Word × State) :=
  match s.stack.getLast? with
  | none => none
  | some a => some (a, { s with stack := s.stack.dropLast })

/-! ## Timers and keypad (R20–R24) -/

/-- `decrement()`: one step toward zero, saturating (R20). -/
def decTimer (t : Byte) : Byte := if t = 0 then 0 else t - 1

/-- Timer pacing (spec/40_cycle.md R64): one decrement of each timer when `tick`. -/
def State.pace (s : State) (tick : Bool) : State :=
  if tick then { s with DT := decTimer s.DT, ST := decTimer s.ST } else s

/-- `apply(event)` (R22). -/
def State.applyEvent (s : State) : KeyEvent → State
  | .keyDown k => { s with keys := s.keys.set k.val true }
  | .keyUp k => { s with keys := s.keys.set k.val false, released := some k }
  | .stop => { s with stop := true }

/-- The keypad drain (spec/40_cycle.md R65): every event, in feed order. -/
def State.drain : List KeyEvent → State → State
  | [], s => s
  | e :: rest, s => State.drain rest (s.applyEvent e)

/-- `IsPressed(k)` (R23). -/
def State.isPressed (s : State) (k : Nibble) : Bool := s.keys[k.val]

/-- `TakeReleased()`: the pending key, and the state with the slot empty (R24). -/
def State.takeReleased (s : State) : Option Nibble × State := (s.released, { s with released := none })

/-- A register value as a key code or digit: none above 0xF (R23, spec/43_index_memory.md R97). -/
def nibbleOfByte (b : Byte) : Option Nibble := if h : b.toNat < 16 then some ⟨b.toNat, h⟩ else none

/-! ## Display (R25–R28) -/

/-- The index `x + 64·y` of the cell at column x < 64 and row y < 32 (R25). -/
def cellIndex (x y : Nat) : Fin 2048 := Fin.ofNat 2048 (x + 64 * y)

/-- The value of cell j of a grid (R25). -/
def Grid.get (g : Grid) (j : Fin 2048) : Bool := (g[j.val / 64]'(by omega)).getLsbD (j.val % 64)

/-- The grid with cell j given the value b. -/
def Grid.put (g : Grid) (j : Fin 2048) (b : Bool) : Grid :=
  let row := g[j.val / 64]'(by omega)
  let bit := BitVec.twoPow 64 (j.val % 64)
  g.set (j.val / 64) (if b then row ||| bit else row &&& ~~~bit) (by omega)

/-- The all-false grid. -/
def Grid.clear : Grid := Vector.replicate 32 0

/-- `fb[j]`. -/
def State.pixel (s : State) (j : Fin 2048) : Bool := Grid.get s.fb j

/-- `Toggle` (R26): flips cell j and emits its new value. The prior value it returns is `s.pixel j`. -/
def State.toggle (s : State) (j : Fin 2048) : State :=
  { s with fb := Grid.put s.fb j (!s.pixel j), feed := s.feed ++ [.set j (!s.pixel j)] }

/-- Toggling the cells of a list in order (spec/44_display.md R102). -/
def State.plot : List (Fin 2048) → State → State
  | [], s => s
  | j :: rest, s => State.plot rest (s.toggle j)

/-- Whether some cell of a list toggled in order was set before its toggle (R102). -/
def State.collides : List (Fin 2048) → State → Bool
  | [], _ => false
  | j :: rest, s => s.pixel j || State.collides rest (s.toggle j)

/-- `ClearScreen()` (R27). -/
def State.clearScreen (s : State) : State := { s with fb := Grid.clear, feed := s.feed ++ [.clear] }

/-- One event applied to a consumer's grid: `Set(j, b)` is `g[j] <- b`, `Clear` is all-false (R28). -/
def replayEvent (g : Grid) : DisplayEvent → Grid
  | .set j b => Grid.put g j b
  | .clear => Grid.clear

/-- The grid a consumer reconstructs from the feed, from an all-false grid (R28). -/
def replay (feed : List DisplayEvent) : Grid := feed.foldl replayEvent Grid.clear

/-! ## Faults (spec/60_exceptions.md R110–R113) -/

/-- The code of R110's table. -/
def FaultCause.code : FaultCause → Nat
  | .unrecognizedOpcode => 1
  | .stackUnderflow => 2
  | .memoryOutOfRange _ => 3
  | .stackOverflow => 4
  | .keyOutOfRange _ => 5
  | .fontDigitOutOfRange _ => 6

/-- TAKING A FAULT (R69, R111, R112): `pc` is the fetch address again, the record is held, and nothing else of the
state changes. Every check comes before every write, so `s` holds no effect of the instruction. -/
def State.takeFault (s : State) (cause : FaultCause) (word : Option Word) (pcFetch : Word) : State :=
  { s with pc := pcFetch, fault := some ⟨cause, word, pcFetch⟩ }

/-- `raise F` during the execution of instruction `i`: the fetch address is `pc -_16 2` (R66), and the word is the one
that `i` was decoded from, `encode i` (log entry 5). -/
def State.raise (s : State) (cause : FaultCause) (i : Instr) : State :=
  s.takeFault cause (some (encode i)) (s.pc - 2)

/-! ## The top of a cycle (spec/40_cycle.md R63–R66) -/

/-- The inputs of the coming cycle: the first of the environment's list. When the list is empty: no tick, no event,
and a free random byte (R122: "an empty `events`, a false `tick` and any `rnd` are always legal"; log entry 3). -/
def State.nextInput (s : State) : CycleInput :=
  match s.inputs with
  | [] => ⟨false, [], Config.freeByte s.draws⟩
  | c :: _ => c

/-- Taking the inputs of the coming cycle off the environment's list and putting its random byte at the port. -/
def State.takeInput (s : State) : State :=
  match s.inputs with
  | [] => { s with rnd := Config.freeByte s.draws, draws := s.draws + 1 }
  | c :: rest => { s with inputs := rest, rnd := c.rnd }

/-- The part of a cycle before the fetch: the inputs are taken, the timers paced, the events drained (R63). -/
def State.beginCycle (s : State) : State := State.drain s.nextInput.events (s.takeInput.pace s.nextInput.tick)

/-- The fetch of the word at `pc` (R66); the advance of `pc` is `State.advance`. -/
def State.fetchWord (s : State) : Except FaultCause Word := s.memReadWord s.pc.toNat

/-! ## The host's side (R122) -/

/-- The host queues the inputs of one more cycle. -/
def State.offer (s : State) (c : CycleInput) : State := { s with inputs := s.inputs ++ [c] }

/-- The bytes of an image laid at consecutive addresses from `a`. -/
def imageCells (a : Nat) : List Byte → List (Nat × Byte)
  | [] => []
  | b :: rest => (a, b) :: imageCells (a + 1) rest

/-- Construction (spec/70_reset_and_hazards.md R124, R125): the reset state under `cfg` with the image written from
0x200 over what `background` holds there; refused for a malformed configuration or an image that does not fit. -/
def construct (cfg : Config) (image : List Byte) : Host.Outcome State Fault Refusal :=
  if cfg.wellFormed = false then .refused .malformedConfiguration
  else if imageFits image = false then .refused .imageTooLong
  else .next (State.writeBytes (imageCells 0x200 image) { State.reset with cfg := cfg })

end Sys2Proof.Machine
end

