-- ==== Sys2Proof/Machine/Flags.lean ====
section
/-! DEFINITION. Every computation of VF, the one flag of the core (spec/10_state.md R15). -/

namespace Sys2Proof.Machine

/-- VF, register 15 (R15). -/
abbrev vf : Nibble := 15

/-- The carry of 8XY4: the exact sum exceeds 255 (spec/42_alu.md R88). -/
def carry (a b : Byte) : Bool := decide (a.toNat + b.toNat > 255)
/-- The flag of 8XY5 and 8XY7: no borrow occurred in `a - b` (R89, R91). -/
def noBorrow (a b : Byte) : Bool := decide (a.toNat ≥ b.toNat)
/-- The bit a right shift by one moves out (R90). -/
def bitOutRight (t : Byte) : Byte := t &&& 1
/-- The bit a left shift by one moves out (R92). -/
def bitOutLeft (t : Byte) : Byte := t >>> 7
/-- FX1E's test: the index exceeds the 12-bit ceiling 0x0FFF (spec/43_index_memory.md R96). -/
def indexOverflow (i : Word) : Bool := decide (i.toNat > 0x0FFF)

/-- `V[x] <- r` and then `V[F] <- flag`: the flag last, so that it remains when x = 0xF (R15, R88–R92). -/
def State.setResultAndFlag (s : State) (x : Nibble) (r flag : Byte) : State := (s.setV x r).setV vf flag

/-- FX1E's write of VF, after I holds the sum (R96): 1 above the ceiling; at or below it 0 when `fx1e_clears_vf`, else
no write; no write at all with `flag_index_overflow` false. -/
def State.flagIndex (s : State) : State :=
  if s.cfg.flagIndexOverflow then
    if indexOverflow s.I then s.setV vf 1
    else if s.cfg.fx1eClearsVf then s.setV vf 0
    else s
  else s

end Sys2Proof.Machine
end

