-- ==== Sys2Proof/Machine/Operands.lean ====
section
/-! DEFINITION. The operand forms: effective addresses, the jump's offset register, the shift's source, decimal digits
and the geometry of a sprite. -/

namespace Sys2Proof.Machine

/-- The effective addresses `base + 0 .. base + (n - 1)`, exact naturals (spec/20_memory.md R36). -/
def blockAddrs (base : Word) (n : Nat) : List Nat := (List.range n).map fun k => base.toNat + k

/-- The registers V0..VX of a block transfer, in order (spec/43_index_memory.md R99, R100). -/
def regsUpTo (x : Nibble) : List Nibble := (List.range (x.val + 1)).map (Fin.ofNat 16)

/-- The bytes FX55 stores: `V[k]` at `I + k` for k = 0..X (R99). -/
def storeCells (s : State) (x : Nibble) : List (Nat × Byte) :=
  (regsUpTo x).map fun k => (s.I.toNat + k.val, s.getV k)

/-- The hundreds, tens and units digits of a byte (R98). -/
def bcdDigits (v : Byte) : List Byte := [v / 100, (v / 10) % 10, v % 10]

/-- The bytes FX33 stores at I, I + 1, I + 2 (R98). -/
def bcdCells (s : State) (v : Byte) : List (Nat × Byte) := (blockAddrs s.I 3).zip (bcdDigits v)

/-- I after a block transfer of V0..VX (R99, R100): advanced by X + 1 when the quirk is on. -/
def indexAfterTransfer (s : State) (x : Nibble) : Word :=
  if s.cfg.incrementIndexOnBlockTransfer then s.I + BitVec.ofNat 16 (x.val + 1) else s.I

/-- The register BNNN adds: VX with X = NNN[11:8] under the quirk, else V0 (spec/41_control.md R76). -/
def jumpOffset (s : State) (nnn : Addr12) : Byte :=
  if s.cfg.jumpOffsetUsesVx then s.getV (nnn.extractLsb' 8 4).toFin else s.getV 0

/-- The value 8XY6 and 8XYE shift: VY's under `assign_before_shift`, else VX's (spec/42_alu.md R90, R92). -/
def shiftSource (s : State) (x y : Nibble) : Byte :=
  if s.cfg.assignBeforeShift then s.getV y else s.getV x

/-- The address of the glyph of digit d (R97): `font_base + 5·d`. -/
def glyphAddr (c : Config) (d : Nibble) : Word := c.fontBase.setWidth 16 + BitVec.ofNat 16 (5 * d.val)

/-- The column a sprite starts at (spec/44_display.md R102). -/
def startColumn (v : Byte) : Nat := v.toNat % 64
/-- The row a sprite starts at (R102). -/
def startRow (v : Byte) : Nat := v.toNat % 32
/-- The number of rows drawn: rows at 32 or below are abandoned (R102). -/
def drawnRows (n : Nibble) (y0 : Nat) : Nat := min n.val (32 - y0)

/-- The cells one sprite row toggles, left to right: bit 7 - c of the byte is the pixel at column x0 + c, and columns
from 64 on are clipped (R102). -/
def rowCells (x0 y : Nat) (b : Byte) : List (Fin 2048) :=
  (List.range 8).filterMap fun c =>
    if x0 + c < 64 ∧ b.getLsbD (7 - c) = true then some (cellIndex (x0 + c) y) else none

/-- The cells a sprite toggles, row by row from `y` (R102). -/
def spriteCells (x0 : Nat) : Nat → List Byte → List (Fin 2048)
  | _, [] => []
  | y, b :: rest => rowCells x0 y b ++ spriteCells x0 (y + 1) rest

end Sys2Proof.Machine
end

