-- ==== Sys2Proof/Machine/Control.lean ====
section
/-! DEFINITION. Control transfer and skips (spec/41_control.md). `pc` holds `pc_fetch + 2` when an instruction starts. -/

namespace Sys2Proof.Machine

/-- What a meaning answers. -/
abbrev Result := Host.Outcome State Fault Refusal

/-- The shape of every skip (R72). -/
def skipIf (c : Bool) (s : State) : Result := .next (if c then s.skip else s)

/-- 00EE RET (R73). -/
def execRet (s : State) : Result :=
  match s.pop with
  | none => .next (s.raise .stackUnderflow .ret)
  | some (a, t) => .next (t.setPc a)

/-- 1NNN JP NNN (R74). -/
def execJp (nnn : Addr12) (s : State) : Result := .next (s.setPc (nnn.setWidth 16))

/-- 2NNN CALL NNN (R75). -/
def execCall (nnn : Addr12) (s : State) : Result :=
  if s.stackFull then .next (s.raise .stackOverflow (.call nnn))
  else .next ((s.push s.pc).setPc (nnn.setWidth 16))

/-- BNNN JP V0, NNN (R76). -/
def execJpOff (nnn : Addr12) (s : State) : Result :=
  .next (s.setPc (nnn.setWidth 16 + (jumpOffset s nnn).setWidth 16))

/-- 3XNN SE VX, NN (R77). -/
def execSeImm (x : Nibble) (nn : Byte) (s : State) : Result := skipIf (s.getV x == nn) s

/-- 4XNN SNE VX, NN (R78). -/
def execSneImm (x : Nibble) (nn : Byte) (s : State) : Result := skipIf (s.getV x != nn) s

/-- 5XY0 SE VX, VY (R79). -/
def execSeReg (x y : Nibble) (s : State) : Result := skipIf (s.getV x == s.getV y) s

/-- 9XY0 SNE VX, VY (R80). -/
def execSneReg (x y : Nibble) (s : State) : Result := skipIf (s.getV x != s.getV y) s

end Sys2Proof.Machine
end

