-- ==== Sys2Proof/Machine/Alu.lean ====
section
/-! DEFINITION. Register loads, arithmetic, logic, shifts and random (spec/42_alu.md). -/

namespace Sys2Proof.Machine

/-- 6XNN LD VX, NN (R82). -/
def execLdImm (x : Nibble) (nn : Byte) (s : State) : Result := .next (s.setV x nn)

/-- 7XNN ADD VX, NN (R83): no flag. -/
def execAddImm (x : Nibble) (nn : Byte) (s : State) : Result := .next (s.setV x (s.getV x + nn))

/-- 8XY0 LD VX, VY (R84). -/
def execLdReg (x y : Nibble) (s : State) : Result := .next (s.setV x (s.getV y))

/-- 8XY1 OR VX, VY (R85): no flag. -/
def execOrReg (x y : Nibble) (s : State) : Result := .next (s.setV x (s.getV x ||| s.getV y))

/-- 8XY2 AND VX, VY (R86): no flag. -/
def execAndReg (x y : Nibble) (s : State) : Result := .next (s.setV x (s.getV x &&& s.getV y))

/-- 8XY3 XOR VX, VY (R87): no flag. -/
def execXorReg (x y : Nibble) (s : State) : Result := .next (s.setV x (s.getV x ^^^ s.getV y))

/-- 8XY4 ADD VX, VY (R88). -/
def execAddReg (x y : Nibble) (s : State) : Result :=
  .next (s.setResultAndFlag x (s.getV x + s.getV y) (boolToByte (carry (s.getV x) (s.getV y))))

/-- 8XY5 SUB VX, VY (R89). -/
def execSub (x y : Nibble) (s : State) : Result :=
  .next (s.setResultAndFlag x (s.getV x - s.getV y) (boolToByte (noBorrow (s.getV x) (s.getV y))))

/-- 8XY6 SHR VX (, VY) (R90). -/
def execShr (x y : Nibble) (s : State) : Result :=
  .next (s.setResultAndFlag x (shiftSource s x y >>> 1) (bitOutRight (shiftSource s x y)))

/-- 8XY7 SUBN VX, VY (R91). -/
def execSubn (x y : Nibble) (s : State) : Result :=
  .next (s.setResultAndFlag x (s.getV y - s.getV x) (boolToByte (noBorrow (s.getV y) (s.getV x))))

/-- 8XYE SHL VX (, VY) (R92). -/
def execShl (x y : Nibble) (s : State) : Result :=
  .next (s.setResultAndFlag x (shiftSource s x y <<< 1) (bitOutLeft (shiftSource s x y)))

/-- CXNN RND VX, NN (R93): the cycle's random byte under the mask. -/
def execRnd (x : Nibble) (nn : Byte) (s : State) : Result := .next (s.setV x (s.rnd &&& nn))

end Sys2Proof.Machine
end

