-- ==== Sys2Proof/Machine/Index.lean ====
section
/-! DEFINITION. The index register and memory transfers (spec/43_index_memory.md). Every address is checked before
anything is written. -/

namespace Sys2Proof.Machine

/-- The check of a list of effective addresses, and then the instruction's effect (R111, R113): the first address that
may not be accessed is the fault. -/
def withRange (addrs : List Nat) (i : Instr) (effect : State) (s : State) : Result :=
  match firstOutOfRange s.cfg addrs with
  | some a => .next (s.raise (.memoryOutOfRange a) i)
  | none => .next effect

/-- ANNN LD I, NNN (R95). -/
def execLdI (nnn : Addr12) (s : State) : Result := .next (s.setI (nnn.setWidth 16))

/-- FX1E ADD I, VX (R96). -/
def execAddI (x : Nibble) (s : State) : Result := .next (s.setI (s.I + (s.getV x).setWidth 16)).flagIndex

/-- FX29 LD F, VX (R97). -/
def execLdF (x : Nibble) (s : State) : Result :=
  match nibbleOfByte (s.getV x) with
  | none => .next (s.raise (.fontDigitOutOfRange (s.getV x)) (.ldF x))
  | some d => .next (s.setI (glyphAddr s.cfg d))

/-- FX33 LD B, VX (R98). -/
def execLdB (x : Nibble) (s : State) : Result :=
  withRange (blockAddrs s.I 3) (.ldB x) (State.writeBytes (bcdCells s (s.getV x)) s) s

/-- FX55 LD [I], VX (R99). -/
def execStore (x : Nibble) (s : State) : Result :=
  withRange (blockAddrs s.I (x.val + 1)) (.store x)
    ((State.writeBytes (storeCells s x) s).setI (indexAfterTransfer s x)) s

/-- FX65 LD VX, [I] (R100). -/
def execLoad (x : Nibble) (s : State) : Result :=
  withRange (blockAddrs s.I (x.val + 1)) (.load x)
    ((State.loadRegs (regsUpTo x) s).setI (indexAfterTransfer s x)) s

end Sys2Proof.Machine
end

