-- ==== Sys2Proof/Machine/Display.lean ====
section
/-! DEFINITION. The display instructions (spec/44_display.md). -/

namespace Sys2Proof.Machine

/-- 00E0 CLS (R101). -/
def execCls (s : State) : Result := .next s.clearScreen

/-- The effective addresses of the sprite rows DXYN draws: abandoned rows are not among them (R102). -/
def spriteAddrs (y n : Nibble) (s : State) : List Nat := blockAddrs s.I (drawnRows n (startRow (s.getV y)))

/-- The cells DXYN toggles, in order (R102). -/
def drawCells (x y n : Nibble) (s : State) : List (Fin 2048) :=
  spriteCells (startColumn (s.getV x)) (startRow (s.getV y)) ((spriteAddrs y n s).map s.readByte)

/-- DXYN DRW VX, VY, N (R102): VF is written after every toggle and every read. -/
def execDrw (x y n : Nibble) (s : State) : Result :=
  withRange (spriteAddrs y n s) (.drw x y n)
    ((State.plot (drawCells x y n s) s).setV vf (boolToByte (State.collides (drawCells x y n s) s))) s

end Sys2Proof.Machine
end

