-- ==== Sys2Proof/Machine/Keypad.lean ====
section
/-! DEFINITION. Keypad and timer instructions (spec/45_keypad_timers.md). -/

namespace Sys2Proof.Machine

/-- EX9E SKP VX (R104). -/
def execSkp (x : Nibble) (s : State) : Result :=
  match nibbleOfByte (s.getV x) with
  | none => .next (s.raise (.keyOutOfRange (s.getV x)) (.skp x))
  | some k => skipIf (s.isPressed k) s

/-- EXA1 SKNP VX (R105). -/
def execSknp (x : Nibble) (s : State) : Result :=
  match nibbleOfByte (s.getV x) with
  | none => .next (s.raise (.keyOutOfRange (s.getV x)) (.sknp x))
  | some k => skipIf (!s.isPressed k) s

/-- FX07 LD VX, DT (R107). -/
def execLdVxDt (x : Nibble) (s : State) : Result := .next (s.setV x s.DT)

/-- FX0A LD VX, K (R106): the pending release, or the same instruction again in the next cycle. -/
def execLdVxK (x : Nibble) (s : State) : Result :=
  match s.takeReleased with
  | (some k, t) => .next (t.setV x (BitVec.ofNat 8 k.val))
  | (none, t) => .next t.rewind

/-- FX15 LD DT, VX (R108). -/
def execLdDtVx (x : Nibble) (s : State) : Result := .next (s.setDT (s.getV x))

/-- FX18 LD ST, VX (R109). -/
def execLdStVx (x : Nibble) (s : State) : Result := .next (s.setST (s.getV x))

end Sys2Proof.Machine
end

