-- ==== Sys2Proof/Machine/Step.lean ====
section
/-! DEFINITION. One cycle of the core as one step (spec/40_cycle.md R63, R70), and the host's way to place an
instruction where the next cycle fetches. -/

namespace Sys2Proof.Machine

/-- Decode, and execute with `pc` past the word, or the fault of an unrecognized word (R67). -/
def runWord (w : Word) (s : State) : Host.Outcome State Fault Refusal :=
  match decode w with
  | .error _ => .next (s.takeFault .unrecognizedOpcode (some w) s.pc)
  | .ok i => exec i s.advance

/-- The cycle of R70. A state that holds a fault record has no next cycle (R30). -/
def step (s : State) : Host.Outcome State Fault Refusal :=
  match s.fault with
  | some r => .fault (.coreStopped r)
  | none =>
    match s.beginCycle.fetchWord with
    | .error c => .next (s.beginCycle.takeFault c none s.beginCycle.pc)
    | .ok w => runWord w s.beginCycle

/-- The state with the table word `w` stored, high byte first, at the cells the next cycle fetches from (`pc` and
`pc + 1`, R66). Where the fetch would fault the state is left as it is: no instruction can stand there. -/
def State.withFetchWord (s : State) (nbits w : Nat) : State :=
  let word : Word := BitVec.ofNat 16 (w % 2 ^ nbits)
  match firstOutOfRange s.cfg (blockAddrs s.pc 2) with
  | some _ => s
  | none => (s.writeByte s.pc.toNat (highByte word)).writeByte (s.pc.toNat + 1) (lowByte word)

end Sys2Proof.Machine
end

