-- ==== Sys2Proof/Safety.lean ====
section
/-! DEFINITION. What counts as a run and as a safe run (spec/70_reset_and_hazards.md R132), and the invariant of the
core, in the terms the statements use. -/

namespace Sys2Proof.Machine

/-- The core runs: no fault has been raised (spec/10_state.md R30). -/
abbrev State.running (s : State) : Prop := s.fault = none

/-- `n` cycles of the core from a state (R132). -/
def State.cycles (n : Nat) (s : State) : Host.Outcome State Fault Refusal := Sys2Proof.core.run n s

/-- A safe run of `n` cycles: every one completes and the last leaves the core running. -/
def State.SafeRun (n : Nat) (s : State) : Prop := ∃ t, s.cycles n = .next t ∧ t.running

/-- Memory is in its canonical form (`Memory.wf`). -/
abbrev State.MemoryCanonical (s : State) : Prop := Memory.wf s.cfg s.mem = true

/-- The replay law: a consumer of the whole feed reconstructs the framebuffer (R28). -/
abbrev State.FeedReplays (s : State) : Prop := replay s.feed = s.fb

/-- Under `stack_limit = some n` the stack holds at most n entries (R18). -/
def State.StackBounded (s : State) : Prop := ∀ n, s.cfg.stackLimit = some n → s.stack.length ≤ n

/-- The invariant of the core: it holds after construction and every cycle keeps it. -/
structure State.Inv (s : State) : Prop where
  config : s.cfg.wellFormed = true
  memory : s.MemoryCanonical
  replays : s.FeedReplays
  bounded : s.StackBounded

end Sys2Proof.Machine
end

