-- ==== Sys2Proof/Certificates/Slice0/Obligations.lean ====
section
/-! DEFINITION. The statements about the model. Each docstring names the rules of spec/ it formalises, and says where a
clause is the spec's own decision (92_eei_decisions.md D<n>) or this model's (a log entry of notes/assumptions). -/

open Sys2Proof Sys2Proof.Machine

namespace Sys2Proof.Claims

/-- Every byte of memory reads as before. -/
def SameMemory (s t : State) : Prop := ∀ a, t.readByte a = s.readByte a

/-- The frame of an instruction that writes V registers only: every other field, every byte of memory and every
register outside `ws` is as before. -/
def OnlyRegs (s t : State) (ws : List Nibble) : Prop :=
  t = { s with V := t.V } ∧ SameMemory s t ∧ ∀ r, r ∉ ws → t.getV r = s.getV r

/-- The frame of an instruction that writes `pc` only, the value `p`. -/
def OnlyPc (s t : State) (p : Word) : Prop := t = { s with pc := p } ∧ SameMemory s t

/-- Instruction `i` raises the fault `c` (R69, R111, R112): `pc` is the fetch address again, the record names the
cause, the word and the fetch address, and nothing else changes. -/
def FaultsWith (i : Instr) (s : State) (c : FaultCause) : Prop :=
  ∃ t, exec i s = .next t ∧ t = { s with pc := s.pc - 2, fault := some ⟨c, some (encode i), s.pc - 2⟩ } ∧
    SameMemory s t

/-- The number of effective addresses, from I on, that an instruction accesses; none for one that accesses none through
I (R36, R98, R99, R100, R102). -/
def accessCount (s : State) : Instr → Option Nat
  | .ldB _ => some 3
  | .store x => some (x.val + 1)
  | .load x => some (x.val + 1)
  | .drw _ y n => some (min n.val (32 - (s.getV y).toNat % 32))
  | _ => none

/-- Fault `c` is one that instruction `i` may raise in state `s`: the rows of R110 for codes 2 to 6. The address of a
code 3 is the lowest effective address of `i` at 4096 or above. -/
def InstructionFault (i : Instr) (s : State) (c : FaultCause) : Prop :=
  (c.code = 2 ∧ c = .stackUnderflow ∧ i = .ret ∧ s.stack = []) ∨
  (c.code = 3 ∧ s.cfg.memOob = .fault ∧ ∃ a n, c = .memoryOutOfRange a ∧ accessCount s i = some n ∧
    a = max s.I.toNat 4096 ∧ a < s.I.toNat + n) ∨
  (c.code = 4 ∧ c = .stackOverflow ∧ s.cfg.stackLimit = some s.stack.length ∧ ∃ nnn, i = .call nnn) ∨
  (c.code = 5 ∧ ∃ x, c = .keyOutOfRange (s.getV x) ∧ 15 < (s.getV x).toNat ∧ (i = .skp x ∨ i = .sknp x)) ∨
  (c.code = 6 ∧ ∃ x, c = .fontDigitOutOfRange (s.getV x) ∧ 15 < (s.getV x).toNat ∧ i = .ldF x)

/-- 1 for true and 0 for false, as a byte (R10). -/
def flagByte (p : Prop) [Decidable p] : Byte := if p then 1 else 0

/-- The `n` effective addresses from I are all inside memory, or out-of-range addresses wrap (R36, R37). -/
def BlockInRange (s : State) (n : Nat) : Prop := s.I.toNat + n ≤ 4096 ∨ s.cfg.memOob = .wrap

/-- Outside the cells of the `n` effective addresses from I, every byte of memory reads as before. -/
def SameMemoryOutside (s t : State) (n : Nat) : Prop :=
  ∀ a, cellOf a ∉ (blockAddrs s.I n).map cellOf → t.readByte a = s.readByte a

/-- The column and row a sprite starts at (R102). -/
def startX (s : State) (x : Nibble) : Nat := (s.getV x).toNat % 64
def startY (s : State) (y : Nibble) : Nat := (s.getV y).toNat % 32

/-- The number of rows of the sprite that lie on the display (R102). -/
def visibleRows (s : State) (y n : Nibble) : Nat := min n.val (32 - startY s y)

/-- Bit `c` from the left of sprite row `r` is 1. -/
def spriteBit (s : State) (r c : Nat) : Prop := (s.readByte (s.I.toNat + r)).getLsbD (7 - c) = true

/-- DXYN covers the cell at column `col` and row `row`: a sprite bit of 1 falls on it (R102). -/
def Covers (s : State) (x y n : Nibble) (col row : Nat) : Prop :=
  startX s x ≤ col ∧ col < startX s x + 8 ∧ col < 64 ∧ startY s y ≤ row ∧ row < startY s y + n.val ∧ row < 32 ∧
    spriteBit s (row - startY s y) (col - startX s x)

/-- The Set events of one DXYN, row by row from the top and from left to right in a row (R102). -/
def drawEvents (s : State) (x y n : Nibble) : List DisplayEvent :=
  (List.range (visibleRows s y n)).flatMap fun r =>
    ((List.range 8).filter fun c =>
      decide (startX s x + c < 64) && (s.readByte (s.I.toNat + r)).getLsbD (7 - c)).map fun c =>
        .set (cellIndex (startX s x + c) (startY s y + r)) (!s.pixel (cellIndex (startX s x + c) (startY s y + r)))

/-- Every word that `mask` and `bits` select decodes to the instruction `i` makes of it: a row of R54's table. -/
def Encodes (mask bits : Word) (i : Word → Instr) : Prop := ∀ w : Word, w &&& mask = bits → decode w = .ok (i w)

/-- An event that releases a key. -/
def isKeyUp : KeyEvent → Bool
  | .keyUp _ => true
  | _ => false

/-- An event about key `k`. -/
def isAbout (k : Nibble) : KeyEvent → Bool
  | .keyDown j => j == k
  | .keyUp j => j == k
  | .stop => false

end Sys2Proof.Claims

open Sys2Proof.Claims

/-! ## Encoding and decoding -/

/-- Words written out from the `pattern` column of R54's table decode to the instructions they stand for, and each of
the fifteen words of test vector Y8 to none. Tier 1. -/
def Obligations.SampleWordsDecode : Prop :=
  decode 0x00E0 = .ok .cls ∧ decode 0x00EE = .ok .ret ∧ decode 0x1ABC = .ok (.jp 0xABC) ∧
  decode 0x220A = .ok (.call 0x20A) ∧ decode 0x3105 = .ok (.seImm 1 0x05) ∧ decode 0x5230 = .ok (.seReg 2 3) ∧
  decode 0x6A05 = .ok (.ldImm 0xA 0x05) ∧ decode 0x8F14 = .ok (.addReg 0xF 1) ∧ decode 0x823E = .ok (.shl 2 3) ∧
  decode 0xA300 = .ok (.ldI 0x300) ∧ decode 0xB2F0 = .ok (.jpOff 0x2F0) ∧ decode 0xC30F = .ok (.rnd 3 0x0F) ∧
  decode 0xD015 = .ok (.drw 0 1 5) ∧ decode 0xE19E = .ok (.skp 1) ∧ decode 0xF30A = .ok (.ldVxK 3) ∧
  decode 0xF255 = .ok (.store 2) ∧
  decode 0x0000 = .error .family0 ∧ decode 0x0123 = .error .family0 ∧ decode 0x00E1 = .error .family0 ∧
  decode 0x00EF = .error .family0 ∧ decode 0x00FF = .error .family0 ∧ decode 0x5121 = .error .family5 ∧
  decode 0x9AB1 = .error .family9 ∧ decode 0x8008 = .error .family8 ∧ decode 0x800F = .error .family8 ∧
  decode 0xE000 = .error .familyE ∧ decode 0xE09F = .error .familyE ∧ decode 0xF000 = .error .familyF ∧
  decode 0xF030 = .error .familyF ∧ decode 0xF075 = .error .familyF ∧ decode 0xFFFF = .error .familyF

/-- Decoding the bytes of an encoded well-formed instruction gives it back, whatever bytes follow (R51–R59): no bit of
an encoding is dropped. The bits of most rows are general knowledge (K2). Tier 3. -/
def Obligations.DecodeOfEncodeIsIdentity : Prop :=
  ∀ (i : Instr) (rest : List Byte), i.wellFormed = true →
    decode (encode i) = .ok i ∧ decodeBytes (encodeBytes i ++ rest) = .ok (i, rest)

/-- Every recognized word is the encoding of the instruction it decodes to, so no two words share a meaning, and the
word of a fault record is the word fetched (R54, R112; log entry 5). Tier 2. -/
def Obligations.EncodeOfDecodeIsIdentity : Prop := ∀ (w : Word) (i : Instr), decode w = .ok i → encode i = w

/-- R54: "A word matches a row when `w & mask = match`; at most one row matches any word", the row of the decoded
instruction is the one that matches, and a word no row matches is unrecognized. Tier 2. -/
def Obligations.DecoderFollowsTheOpcodeTable : Prop :=
  (∀ (w : Word) (i : Instr), decode w = .ok i →
    ∃ r ∈ opcodeTable, r.mnemonic = i.mnemonic ∧ w &&& r.mask = r.bits ∧
      ∀ q ∈ opcodeTable, w &&& q.mask = q.bits → q = r) ∧
  (∀ w : Word, (∃ r ∈ opcodeTable, w &&& r.mask = r.bits) → ∃ i, decode w = .ok i)

/-- R55–R59, R60: which words are recognized, family by family (N ≠ 0 in families 5 and 9 is decision D12). Tier 2. -/
def Obligations.RecognizedWordsByFamily : Prop :=
  ∀ w : Word, (∃ i, decode w = .ok i) ↔
    w = 0x00E0 ∨ w = 0x00EE ∨ w.toNat / 4096 ∈ [1, 2, 3, 4, 6, 7, 10, 11, 12, 13] ∨
    (w.toNat / 4096 ∈ [5, 9] ∧ w.toNat % 16 = 0) ∨
    (w.toNat / 4096 = 8 ∧ w.toNat % 16 ∈ [0, 1, 2, 3, 4, 5, 6, 7, 14]) ∨
    (w.toNat / 4096 = 14 ∧ w.toNat % 256 ∈ [0x9E, 0xA1]) ∨
    (w.toNat / 4096 = 15 ∧ w.toNat % 256 ∈ [0x07, 0x0A, 0x15, 0x18, 0x1E, 0x29, 0x33, 0x55, 0x65])

/-! ## Memory -/

/-- R37, R38: an access below 4096 reads its cell; at 4096 or above it faults with that address under
`mem_oob = fault` and reads the cell modulo 4096 under `mem_oob = wrap` (decision D1). Tier 1. -/
def Obligations.MemoryReadFollowsTheRangeRule : Prop :=
  ∀ (s : State) (a : Nat),
    (a < 4096 → s.memRead a = .ok (s.readCell a)) ∧
    (4096 ≤ a → s.cfg.memOob = .fault → s.memRead a = .error (.memoryOutOfRange a)) ∧
    (4096 ≤ a → s.cfg.memOob = .wrap → s.memRead a = .ok (s.readCell (a % 4096)))

/-- R39: the word read is big-endian and each of its two byte addresses is checked on its own. The lower one is checked
first (R113, decision D32), and under `mem_oob = wrap` the word at 4095 is made of cells 4095 and 0 (derived in R39 from
R37, decision D1). Tier 1. -/
def Obligations.WordReadIsBigEndian : Prop :=
  ∀ (s : State) (a : Nat) (hi lo : Byte) (c : FaultCause),
    (s.memRead a = .ok hi → s.memRead (a + 1) = .ok lo →
      ∃ w, s.memReadWord a = .ok w ∧ w.toNat = hi.toNat * 256 + lo.toNat) ∧
    (s.memRead a = .error c → s.memReadWord a = .error c) ∧
    (s.memRead a = .ok hi → s.memRead (a + 1) = .error c → s.memReadWord a = .error c) ∧
    (s.cfg.memOob = .wrap → ∃ w, s.memReadWord 4095 = .ok w ∧
      w.toNat = (s.readCell 4095).toNat * 256 + (s.readCell 0).toNat)

/-- R41, R49: bytes stored by FX55 are seen by the next fetch, the first byte as the high one: a program that writes
V0, V1 at I and then runs there fetches the word V0·256 + V1. Tier 2. -/
def Obligations.StoredBytesAreFetched : Prop :=
  ∀ (x : Nibble) (s : State), 1 ≤ x.val → BlockInRange s (x.val + 1) →
    ∃ t, exec (.store x) s = .next t ∧
      ∀ u : State, u.mem = t.mem → u.cfg = t.cfg → u.pc = s.I →
        ∃ w, u.fetchWord = .ok w ∧ w.toNat = (s.getV 0).toNat * 256 + (s.getV 1).toNat

/-! ## The cycle -/

/-- R66, R67, R70: when the bytes at the program counter decode to an instruction, the cycle is that instruction
executed after the pacing and the drain with `pc` past its two bytes. Tier 1. -/
def Obligations.StepRunsTheDecodedInstruction : Prop :=
  ∀ (s : State) (hi lo : Byte) (i : Instr), s.fault = none →
    s.memRead s.pc.toNat = .ok hi → s.memRead (s.pc.toNat + 1) = .ok lo → decodeBytes [hi, lo] = .ok (i, []) →
    i.wellFormed = true ∧ s.beginCycle.pc = s.pc ∧
      step s = exec i { s.beginCycle with pc := s.beginCycle.pc + 2 }

/-- R20, R64: at the top of a cycle both timers go one step toward zero, saturating, when the cycle's tick is true, and
keep their values when it is false; at most one decrement (the tick as an input is decision D24). The cycle takes the
first inputs of the queue, its random byte goes to `rnd`, and `draws` stays: the queue, `rnd` and `draws` are the model's
choice of log entries 2 and 3. Tier 2. -/
def Obligations.TimersArePacedOncePerTick : Prop :=
  ∀ (s : State) (c : CycleInput) (rest : List CycleInput), s.inputs = c :: rest →
    (c.tick = true → s.beginCycle.DT.toNat = s.DT.toNat - 1 ∧ s.beginCycle.ST.toNat = s.ST.toNat - 1) ∧
    (c.tick = false → s.beginCycle.DT = s.DT ∧ s.beginCycle.ST = s.ST) ∧
    s.beginCycle.inputs = rest ∧ s.beginCycle.rnd = c.rnd ∧ s.beginCycle.draws = s.draws

/-- R22, R65: the drain applies every event of the cycle in feed order: a key's state is that of the last event about
it, the slot holds the key of the last release, and Stop latches (decisions D25, D26, D27). The cycle's events are those of
the first inputs of the queue, the model's choice of log entry 2. Tier 2. -/
def Obligations.DrainAppliesEventsInOrder : Prop :=
  ∀ (s : State) (c : CycleInput) (rest : List CycleInput) (k : Nibble), s.inputs = c :: rest →
    (∀ pre post, c.events = pre ++ .keyDown k :: post → post.any (isAbout k) = false →
      s.beginCycle.isPressed k = true) ∧
    (∀ pre post, c.events = pre ++ .keyUp k :: post → post.any (isAbout k) = false →
      s.beginCycle.isPressed k = false) ∧
    (c.events.any (isAbout k) = false → s.beginCycle.isPressed k = s.isPressed k) ∧
    (∀ pre post, c.events = pre ++ .keyUp k :: post → post.any isKeyUp = false →
      s.beginCycle.released = some k) ∧
    (c.events.any isKeyUp = false → s.beginCycle.released = s.released) ∧
    (s.beginCycle.stop = true ↔ s.stop = true ∨ KeyEvent.stop ∈ c.events)

/-- R114 and the model's choice of log entry 3: the pacing and the drain touch the inputs, the timers and the keypad
only, and a cycle for which the host has queued nothing has no tick and no event (R122). Tier 1. -/
def Obligations.TopOfCycleFrame : Prop :=
  ∀ s : State,
    s.beginCycle = { s with
      inputs := s.beginCycle.inputs, rnd := s.beginCycle.rnd, draws := s.beginCycle.draws,
      DT := s.beginCycle.DT, ST := s.beginCycle.ST, keys := s.beginCycle.keys,
      released := s.beginCycle.released, stop := s.beginCycle.stop } ∧
    SameMemory s s.beginCycle ∧ (∀ r, s.beginCycle.getV r = s.getV r) ∧
    (s.inputs = [] → s.beginCycle = { s with rnd := s.beginCycle.rnd, draws := s.draws + 1 })

/-- R66, R113: with `mem_oob = fault` a fetch at 0x0FFF or above faults with the lower offending byte address, no word
and the fetch address recorded, the pacing and the drain kept (decisions D1, D3, D4). Tier 2. -/
def Obligations.FetchPastMemoryFaults : Prop :=
  ∀ s : State, s.fault = none → s.cfg.memOob = .fault → 0x0FFF ≤ s.pc.toNat →
    step s = .next { s.beginCycle with fault := some ⟨.memoryOutOfRange (max s.pc.toNat 0x1000), none, s.pc⟩ }

/-- R60, R67, R69: an unrecognized word is fatal: the record holds the raw word and the fetch address, the pacing and
the drain are kept, and nothing else changes (decisions D3, D4). Tier 1. -/
def Obligations.UnrecognizedWordFaults : Prop :=
  ∀ (s : State) (w : Word) (e : Unrecognized), s.fault = none → s.fetchWord = .ok w → decode w = .error e →
    step s = .next { s.beginCycle with fault := some ⟨.unrecognizedOpcode, some w, s.pc⟩ }

/-- R30: "a core with `fault ≠ none` takes no further cycle"; the step stops and hands the record out (log entry 4).
Tier 1. -/
def Obligations.FaultedCoreTakesNoCycle : Prop :=
  ∀ (s : State) (r : FaultRecord), s.fault = some r → step s = .fault (.coreStopped r)

/-- R63, R70: in a core that runs, and in no other, a cycle answers a next state, whatever the instruction, the operands
and the configuration: the state of a cycle that completed, or, by the model's reading of log entry 4, the state R69 gives
for a cycle that raised a fault (R68 tells the two apart). No step ever refuses. Tier 2. -/
def Obligations.EveryCycleOfARunningCoreCompletes : Prop :=
  ∀ s : State, ((∃ t, step s = .next t) ↔ s.fault = none) ∧ ∀ r, step s ≠ .refused r

/-- R69, R111: a fault is precise: the state after a cycle that raises one is the state after the pacing and the drain
with the record, and nothing of the instruction (decision D3). Tier 2. -/
def Obligations.FaultsArePrecise : Prop :=
  ∀ (s t : State) (r : FaultRecord), s.fault = none → step s = .next t → t.fault = some r →
    t = { s.beginCycle with fault := some r } ∧ r.pcFetch = s.pc ∧ t.pc = s.pc ∧
      ((∃ w, r.word = some w ∧ s.fetchWord = .ok w) ∨ (r.word = none ∧ s.fetchWord = .error r.cause))

/-- R110: each fault comes from the cause its row names. A cycle that ends in a fault has one of the six codes: 1 for a
fetched word that decodes to nothing; 3 without a word for a fetch past memory, with the lower offending address; or, with
the fetched word, one of codes 2 to 6 that its instruction raises, a code 3 with the lowest effective address past memory.
An instruction executed on its own raises codes 2 to 6 only, with its own word (log entry 5). Codes 3 to 6 are decisions
D1, D5, D14, D15, the record and the addresses D4 and D32. Tier 2. -/
def Obligations.FaultsComeFromTheirNamedCauses : Prop :=
  (∀ (s t : State) (r : FaultRecord), s.fault = none → step s = .next t → t.fault = some r →
    r.pcFetch = s.pc ∧
    ((r.cause.code = 1 ∧ r.cause = .unrecognizedOpcode ∧
        ∃ w e, s.fetchWord = .ok w ∧ decode w = .error e ∧ r.word = some w) ∨
     (r.cause.code = 3 ∧ r.word = none ∧ s.cfg.memOob = .fault ∧ 0x0FFF ≤ s.pc.toNat ∧
        r.cause = .memoryOutOfRange (max s.pc.toNat 4096)) ∨
     (∃ w i, s.fetchWord = .ok w ∧ decode w = .ok i ∧ r.word = some w ∧ InstructionFault i s r.cause))) ∧
  (∀ (i : Instr) (s t : State) (r : FaultRecord), s.fault = none → exec i s = .next t → t.fault = some r →
    r.word = some (encode i) ∧ r.pcFetch = s.pc - 2 ∧ InstructionFault i s r.cause)

/-- R6, R33: the configuration is read-only: no step changes it (the field `cfg` is log entry 1). Tier 2. -/
def Obligations.ConfigurationNeverChanges : Prop := ∀ s t : State, step s = .next t → t.cfg = s.cfg

/-- R22, R71: the Stop latch is never cleared and stops nothing: a cycle from a state whose latch is set is the same
cycle, and the latch stays set (decision D27). Tier 2. -/
def Obligations.StopLatchOnlyLatches : Prop :=
  ∀ s t : State, step s = .next t → step { s with stop := true } = .next { t with stop := true }

/-- R19: "nothing reads ST": two states that differ in ST alone take the same cycle up to ST. Tier 2. -/
def Obligations.NothingReadsTheSoundTimer : Prop :=
  ∀ (s t : State) (v : Byte), step s = .next t → ∃ v', step { s with ST := v } = .next { t with ST := v' }

/-- R28, R115: the core only appends to the display feed and never reads it: what a cycle emits does not depend on what
the feed held. Tier 2. -/
def Obligations.FeedIsAppendOnlyAndNeverRead : Prop :=
  ∀ s t : State, step s = .next t →
    ∃ es, t.feed = s.feed ++ es ∧ ∀ f, step { s with feed := f } = .next { t with feed := f ++ es }

/-- R16, R18, R19, R23, R29, R43, R119: outside its named instructions no instruction writes a component: the stack
(2NNN, 00EE), memory (FX33, FX55), I (ANNN, FX1E, FX29, and FX55 / FX65 under the quirk), the timers (FX15, FX18), the
released slot (FX0A), the display (00E0, DXYN); no instruction writes the press states, the latch or an
input (the fields `cfg`, `inputs`, `rnd` and `draws` are the model's, log entries 1, 2, 3). Tier 2. -/
def Obligations.ComponentsHaveOnlyTheirNamedWriters : Prop :=
  ∀ (i : Instr) (s t : State), exec i s = .next t →
    t.cfg = s.cfg ∧ t.inputs = s.inputs ∧ t.rnd = s.rnd ∧ t.draws = s.draws ∧ t.keys = s.keys ∧ t.stop = s.stop ∧
    (t.stack ≠ s.stack → i = .ret ∨ ∃ nnn, i = .call nnn) ∧
    (¬ SameMemory s t → ∃ x, i = .ldB x ∨ i = .store x) ∧
    (t.I ≠ s.I → (∃ nnn, i = .ldI nnn) ∨ ∃ x, i = .addI x ∨ i = .ldF x ∨
      ((i = .store x ∨ i = .load x) ∧ s.cfg.incrementIndexOnBlockTransfer = true)) ∧
    (t.DT ≠ s.DT → ∃ x, i = .ldDtVx x) ∧ (t.ST ≠ s.ST → ∃ x, i = .ldStVx x) ∧
    (t.released ≠ s.released → ∃ x, i = .ldVxK x) ∧
    (t.fb ≠ s.fb ∨ t.feed ≠ s.feed → i = .cls ∨ ∃ x y n, i = .drw x y n)

/-- R15: VF changes only through an instruction that names register 15 as its destination, or through the seven that
write it as a side effect: 8XY4, 8XY5, 8XY6, 8XY7, 8XYE, DXYN, and FX1E with `flag_index_overflow`. Tier 2. -/
def Obligations.FlagHasOnlyItsNamedWriters : Prop :=
  ∀ (i : Instr) (s t : State), exec i s = .next t → t.getV 15 ≠ s.getV 15 →
    (∃ nn, i = .ldImm 15 nn ∨ i = .addImm 15 nn ∨ i = .rnd 15 nn) ∨
    (∃ y, i = .ldReg 15 y ∨ i = .orReg 15 y ∨ i = .andReg 15 y ∨ i = .xorReg 15 y) ∨
    i = .ldVxDt 15 ∨ i = .ldVxK 15 ∨ i = .load 15 ∨
    (∃ x y, i = .addReg x y ∨ i = .sub x y ∨ i = .shr x y ∨ i = .subn x y ∨ i = .shl x y ∨ ∃ n, i = .drw x y n) ∨
    (s.cfg.flagIndexOverflow = true ∧ ∃ x, i = .addI x)

/-! ## Invariants -/

/-- Every step keeps the canonical form of memory (log entry 6). Tier 3. -/
def Obligations.StepKeepsMemoryCanonical : Prop :=
  ∀ s t : State, s.MemoryCanonical → step s = .next t → t.MemoryCanonical

/-- R28, the replay law, as an invariant of every step: if replaying the whole feed from an all-false grid gives the
framebuffer, it does so after the cycle. Tier 3. -/
def Obligations.StepKeepsTheReplayLaw : Prop :=
  ∀ s t : State, s.FeedReplays → step s = .next t → t.FeedReplays

/-- R132: every state a run of any length reaches from a state that meets the invariant meets it, and is one the
configuration of the start governs. The invariant is the replay law (R28) and the stack bound (R18), with the canonical
form of memory, which is the model's (log entry 6), and a well-formed configuration, whose clause on a stack limit of 0 is
log entry 12. Tier 3. -/
def Obligations.EveryReachableStateMeetsTheInvariant : Prop :=
  ∀ (n : Nat) (s t : State), s.Inv → s.cycles n = .next t → t.Inv ∧ t.cfg = s.cfg

/-- R34, R124: every state that construction gives meets the invariant. Its memory clause is the model's canonical form
(log entry 6), and the configuration clause on a stack limit of 0 is log entry 12. Tier 2. -/
def Obligations.ConstructionMeetsTheInvariant : Prop :=
  State.reset.Inv ∧ ∀ (c : Config) (image : List Byte) (s : State), construct c image = .next s → s.Inv

/-! ## Reset and construction -/

/-- R34: the reset values (decision D22: the spec's own, not its source's), and that the default configuration with the
empty image gives them. Tier 1. -/
def Obligations.ResetValues : Prop :=
  construct Config.default [] = .next State.reset ∧
  State.reset.pc = 0x200 ∧ State.reset.I = 0 ∧ State.reset.DT = 0 ∧ State.reset.ST = 0 ∧ State.reset.stack = [] ∧
  State.reset.released = none ∧ State.reset.stop = false ∧ State.reset.feed = [] ∧ State.reset.fault = none ∧
  (∀ r, State.reset.getV r = 0) ∧ (∀ k, State.reset.isPressed k = false) ∧ (∀ j, State.reset.pixel j = false)

/-- R124, R125: construction writes the image byte for byte from 0x200, over the font where they overlap; the font
table's byte j is at `font_base` + j when `font_loaded`, and every other cell is 0 (decisions D16, D22); the other
components are those of reset. Tier 2. -/
def Obligations.ConstructionLoadsTheImage : Prop :=
  ∀ (c : Config) (image : List Byte), c.wellFormed = true → image.length ≤ 3584 →
    ∃ s, construct c image = .next s ∧ s = { State.reset with cfg := c, mem := s.mem } ∧
      (∀ j b, image[j]? = some b → s.readCell (0x200 + j) = b) ∧
      (∀ a, a < 4096 → (a < 0x200 ∨ 0x200 + image.length ≤ a) →
        s.readCell a =
          if c.fontLoaded = true ∧ c.fontBase.toNat ≤ a ∧ a < c.fontBase.toNat + 80
          then font.getD (a - c.fontBase.toNat) 0 else 0)

/-- R7, R125: construction is refused exactly for a malformed configuration (`font_base` + 80 > 4096, or a stack limit
of 0, which is log entry 12's reading of R7's type) and, under a well-formed one, for an image longer than 3584 bytes
(decisions D16, D23); otherwise it gives a core. Tier 1. -/
def Obligations.ConstructionRefusals : Prop :=
  ∀ (c : Config) (image : List Byte),
    (construct c image = .refused .malformedConfiguration ↔ c.fontBase.toNat + 80 > 4096 ∨ c.stackLimit = some 0) ∧
    (construct c image = .refused .imageTooLong ↔
      c.fontBase.toNat + 80 ≤ 4096 ∧ c.stackLimit ≠ some 0 ∧ image.length > 3584) ∧
    ((∃ s, construct c image = .next s) ↔
      c.fontBase.toNat + 80 ≤ 4096 ∧ c.stackLimit ≠ some 0 ∧ image.length ≤ 3584)

/-! ## Control transfer -/

/-- R74: `pc <- zext_16(NNN)`; no flag, no fault, nothing else. Tier 1. -/
def Obligations.JumpGoesToNNN : Prop :=
  ∀ (nnn : Addr12) (s : State), ∃ t, exec (.jp nnn) s = .next t ∧ t.pc.toNat = nnn.toNat ∧ OnlyPc s t t.pc

/-- R75, R18: the call pushes `pc`, which is the fetch address plus 2, and jumps (decision D6); with the stack at its
limit it faults instead (decision D5). Tier 1. -/
def Obligations.CallPushesAndJumps : Prop :=
  ∀ (nnn : Addr12) (s : State),
    (s.cfg.stackLimit ≠ some s.stack.length →
      ∃ t, exec (.call nnn) s = .next t ∧ t.stack = s.stack ++ [s.pc] ∧ t.pc.toNat = nnn.toNat ∧
        t = { s with pc := t.pc, stack := t.stack } ∧ SameMemory s t) ∧
    (s.cfg.stackLimit = some s.stack.length → FaultsWith (.call nnn) s .stackOverflow)

/-- R73, R18: the return pops the last pushed address into `pc` and leaves the rest of the stack; executed with an empty
call stack it is fatal (the record and the state after it: decisions D3, D4). Tier 1. -/
def Obligations.ReturnPopsIntoPc : Prop :=
  ∀ s : State,
    (∀ (l : List Word) (a : Word), s.stack = l ++ [a] →
      ∃ t, exec .ret s = .next t ∧ t.pc = a ∧ t.stack = l ∧ t = { s with pc := a, stack := l } ∧ SameMemory s t) ∧
    (s.stack = [] → FaultsWith .ret s .stackUnderflow)

/-- R73, R75: whatever a subroutine does, a return that finds the stack as the call left it resumes after the call with
the caller's stack. Tier 1. -/
def Obligations.ReturnUndoesCall : Prop :=
  ∀ (nnn : Addr12) (s t u : State), s.cfg.stackLimit ≠ some s.stack.length → exec (.call nnn) s = .next t →
    u.stack = t.stack → ∃ v, exec .ret u = .next v ∧ v.pc = s.pc ∧ v.stack = s.stack

/-- R76: the jump with offset adds V0, or VX with X the high nibble of NNN under `jump_offset_uses_vx`; the sum is
exact, VF is not written, and there is no fault. Tier 1. -/
def Obligations.JumpWithOffset : Prop :=
  ∀ (nnn : Addr12) (s : State), ∃ t, exec (.jpOff nnn) s = .next t ∧ OnlyPc s t t.pc ∧
    (s.cfg.jumpOffsetUsesVx = false → t.pc.toNat = nnn.toNat + (s.getV 0).toNat) ∧
    (s.cfg.jumpOffsetUsesVx = true → ∀ x : Nibble, x.val = nnn.toNat / 256 →
      t.pc.toNat = nnn.toNat + (s.getV x).toNat)

/-- R72, R77–R80: the four register skips: `pc` moves 2 further exactly when the condition holds, and nothing else
changes (the conditions and the amount are general knowledge, K4, K7). Tier 1. -/
def Obligations.RegisterSkips : Prop :=
  ∀ (x y : Nibble) (nn : Byte) (s : State),
    (∃ t, exec (.seImm x nn) s = .next t ∧ OnlyPc s t (if s.getV x = nn then s.pc + 2 else s.pc)) ∧
    (∃ t, exec (.sneImm x nn) s = .next t ∧ OnlyPc s t (if s.getV x = nn then s.pc else s.pc + 2)) ∧
    (∃ t, exec (.seReg x y) s = .next t ∧ OnlyPc s t (if s.getV x = s.getV y then s.pc + 2 else s.pc)) ∧
    (∃ t, exec (.sneReg x y) s = .next t ∧ OnlyPc s t (if s.getV x = s.getV y then s.pc else s.pc + 2))

/-! ## Register loads, arithmetic, logic, shifts and random -/

/-- R82: `V[X] <- NN`, and nothing else, for every word of row 8. Tier 1. -/
def Obligations.LoadImmediate : Prop :=
  Encodes 0xF000 0x6000 (fun w => .ldImm (xField w) (nnField w)) ∧
  ∀ (x : Nibble) (nn : Byte) (s : State), ∃ t, exec (.ldImm x nn) s = .next t ∧ t.getV x = nn ∧ OnlyRegs s t [x]

/-- R83: `V[X] <- V[X] +_8 NN` with no flag (decision D9). Tier 1. -/
def Obligations.AddImmediateWrapsWithoutFlag : Prop :=
  ∀ (x : Nibble) (nn : Byte) (s : State), ∃ t, exec (.addImm x nn) s = .next t ∧
    (t.getV x).toNat = ((s.getV x).toNat + nn.toNat) % 256 ∧ OnlyRegs s t [x]

/-- R84–R87: copy, or, and, exclusive or, bit by bit; VF is not written (decision D10). Tier 1. -/
def Obligations.CopyAndLogic : Prop :=
  ∀ (x y : Nibble) (s : State),
    (∃ t, exec (.ldReg x y) s = .next t ∧ t.getV x = s.getV y ∧ OnlyRegs s t [x]) ∧
    (∃ t, exec (.orReg x y) s = .next t ∧ OnlyRegs s t [x] ∧
      ∀ k, (t.getV x).getLsbD k = ((s.getV x).getLsbD k || (s.getV y).getLsbD k)) ∧
    (∃ t, exec (.andReg x y) s = .next t ∧ OnlyRegs s t [x] ∧
      ∀ k, (t.getV x).getLsbD k = ((s.getV x).getLsbD k && (s.getV y).getLsbD k)) ∧
    (∃ t, exec (.xorReg x y) s = .next t ∧ OnlyRegs s t [x] ∧
      ∀ k, (t.getV x).getLsbD k = ((s.getV x).getLsbD k ^^ (s.getV y).getLsbD k))

/-- R88: add mod 256, VF = 1 iff the exact sum exceeds 255; for X = F the flag remains (decision D8). Tier 2. -/
def Obligations.AddSetsCarry : Prop :=
  ∀ (x y : Nibble) (s : State), ∃ t, exec (.addReg x y) s = .next t ∧
    t.getV 15 = flagByte ((s.getV x).toNat + (s.getV y).toNat > 255) ∧
    (x ≠ 15 → (t.getV x).toNat = ((s.getV x).toNat + (s.getV y).toNat) % 256) ∧ OnlyRegs s t [x, 15]

/-- R89, R91: VX - VY and VY - VX mod 256, VF = 1 iff no borrow; for X = F the flag remains (decisions D8, D11).
Tier 2. -/
def Obligations.SubtractSetsNoBorrow : Prop :=
  ∀ (x y : Nibble) (s : State),
    (∃ t, exec (.sub x y) s = .next t ∧ t.getV 15 = flagByte ((s.getV x).toNat ≥ (s.getV y).toNat) ∧
      (x ≠ 15 → (t.getV x).toNat = (256 + (s.getV x).toNat - (s.getV y).toNat) % 256) ∧ OnlyRegs s t [x, 15]) ∧
    (∃ t, exec (.subn x y) s = .next t ∧ t.getV 15 = flagByte ((s.getV y).toNat ≥ (s.getV x).toNat) ∧
      (x ≠ 15 → (t.getV x).toNat = (256 + (s.getV y).toNat - (s.getV x).toNat) % 256) ∧ OnlyRegs s t [x, 15])

/-- R90, R92: shift by one of VX, or of VY under `assign_before_shift`; VF = the bit shifted out of the value that was
shifted; for X = F the flag remains (decision D8). Tier 2. -/
def Obligations.ShiftsMoveOneBitIntoTheFlag : Prop :=
  ∀ (x y : Nibble) (s : State) (v : Nat),
    v = (if s.cfg.assignBeforeShift = true then (s.getV y).toNat else (s.getV x).toNat) →
    (∃ t, exec (.shr x y) s = .next t ∧ (t.getV 15).toNat = v % 2 ∧
      (x ≠ 15 → (t.getV x).toNat = v / 2) ∧ OnlyRegs s t [x, 15]) ∧
    (∃ t, exec (.shl x y) s = .next t ∧ (t.getV 15).toNat = v / 128 ∧
      (x ≠ 15 → (t.getV x).toNat = 2 * v % 256) ∧ OnlyRegs s t [x, 15])

/-- R93: `V[X] <- rnd & NN` with `rnd` the random input of the cycle, for every value of it (decision D28; the field
`rnd` is log entry 2); the result has no bit outside the mask. Tier 1. -/
def Obligations.RandomByteUnderMask : Prop :=
  ∀ (x : Nibble) (nn r : Byte) (s : State), s.rnd = r → ∃ t, exec (.rnd x nn) s = .next t ∧ OnlyRegs s t [x] ∧
    (∀ k, (t.getV x).getLsbD k = (r.getLsbD k && nn.getLsbD k)) ∧ t.getV x &&& ~~~nn = 0

/-! ## Index register and memory transfers -/

/-- R95: `I <- zext_16(NNN)`, and nothing else, for every word of row 20. Tier 1. -/
def Obligations.LoadIndex : Prop :=
  Encodes 0xF000 0xA000 (fun w => .ldI (nnnField w)) ∧
  ∀ (nnn : Addr12) (s : State), ∃ t, exec (.ldI nnn) s = .next t ∧ t.I.toNat = nnn.toNat ∧
    t = { s with I := t.I } ∧ SameMemory s t

/-- R96: I wraps mod 2^16 (decision D18); with `flag_index_overflow` VF is 1 above 0x0FFF and, at or below it, 0 or
unchanged as `fx1e_clears_vf` says (decision D17); without it VF is not written. Tier 2. -/
def Obligations.AddToIndexFlagsTheCeiling : Prop :=
  ∀ (x : Nibble) (s : State), ∃ t, exec (.addI x) s = .next t ∧
    t.I.toNat = (s.I.toNat + (s.getV x).toNat) % 65536 ∧
    (s.cfg.flagIndexOverflow = true → t.I.toNat > 0x0FFF → t.getV 15 = 1) ∧
    (s.cfg.flagIndexOverflow = true → t.I.toNat ≤ 0x0FFF → s.cfg.fx1eClearsVf = true → t.getV 15 = 0) ∧
    (s.cfg.flagIndexOverflow = true → t.I.toNat ≤ 0x0FFF → s.cfg.fx1eClearsVf = false → t.getV 15 = s.getV 15) ∧
    (s.cfg.flagIndexOverflow = false → t.getV 15 = s.getV 15) ∧
    (∀ r, r ≠ 15 → t.getV r = s.getV r) ∧ t = { s with I := t.I, V := t.V } ∧ SameMemory s t

/-- R97: FX29 points I at the glyph of a digit, and faults for a value above F (decision D15; the instruction is general
knowledge, K13). Tier 2. -/
def Obligations.FontAddress : Prop :=
  ∀ (x : Nibble) (s : State),
    ((s.getV x).toNat ≤ 15 → ∃ t, exec (.ldF x) s = .next t ∧
      t.I.toNat = s.cfg.fontBase.toNat + 5 * (s.getV x).toNat ∧ t = { s with I := t.I } ∧ SameMemory s t) ∧
    ((s.getV x).toNat > 15 → FaultsWith (.ldF x) s (.fontDigitOutOfRange (s.getV x)))

/-- R98: the three decimal digits of VX go to I, I + 1, I + 2; I and every other byte are unchanged. Tier 2. -/
def Obligations.DecimalDigitsAreStored : Prop :=
  ∀ (x : Nibble) (s : State), BlockInRange s 3 → ∃ t, exec (.ldB x) s = .next t ∧
    (t.readByte s.I.toNat).toNat = (s.getV x).toNat / 100 ∧
    (t.readByte (s.I.toNat + 1)).toNat = (s.getV x).toNat / 10 % 10 ∧
    (t.readByte (s.I.toNat + 2)).toNat = (s.getV x).toNat % 10 ∧
    t = { s with mem := t.mem } ∧ SameMemoryOutside s t 3

/-- R99: V0..VX go to I .. I + X; I advances by X + 1 under the quirk only; every other byte is unchanged. Tier 2. -/
def Obligations.BlockStore : Prop :=
  ∀ (x : Nibble) (s : State), BlockInRange s (x.val + 1) → ∃ t, exec (.store x) s = .next t ∧
    (∀ k : Nibble, k ≤ x → t.readByte (s.I.toNat + k.val) = s.getV k) ∧
    t.I.toNat = (if s.cfg.incrementIndexOnBlockTransfer = true then (s.I.toNat + x.val + 1) % 65536 else s.I.toNat) ∧
    t = { s with mem := t.mem, I := t.I } ∧ SameMemoryOutside s t (x.val + 1)

/-- R100: V0..VX come from I .. I + X, the other registers and memory are unchanged; I as in R99. Tier 2. -/
def Obligations.BlockLoad : Prop :=
  ∀ (x : Nibble) (s : State), BlockInRange s (x.val + 1) → ∃ t, exec (.load x) s = .next t ∧
    (∀ k : Nibble, k ≤ x → t.getV k = s.readByte (s.I.toNat + k.val)) ∧
    (∀ k : Nibble, x < k → t.getV k = s.getV k) ∧
    t.I.toNat = (if s.cfg.incrementIndexOnBlockTransfer = true then (s.I.toNat + x.val + 1) % 65536 else s.I.toNat) ∧
    t = { s with V := t.V, I := t.I } ∧ SameMemory s t

/-- R98–R100, R102, R113: under `mem_oob = fault` an instruction that would touch an address past memory faults with the
lowest one and does nothing; a sprite is checked for its drawn rows only (decisions D1, D3, D20, D32). Tier 2. -/
def Obligations.OutOfRangeTransfersFault : Prop :=
  ∀ (x y n : Nibble) (s : State) (a : Nat), s.cfg.memOob = .fault → a = max s.I.toNat 4096 →
    (s.I.toNat + 3 > 4096 → FaultsWith (.ldB x) s (.memoryOutOfRange a)) ∧
    (s.I.toNat + (x.val + 1) > 4096 → FaultsWith (.store x) s (.memoryOutOfRange a)) ∧
    (s.I.toNat + (x.val + 1) > 4096 → FaultsWith (.load x) s (.memoryOutOfRange a)) ∧
    (0 < visibleRows s y n → s.I.toNat + visibleRows s y n > 4096 → FaultsWith (.drw x y n) s (.memoryOutOfRange a))

/-- R100 and 90_conflicts.md C6: storing V0..VX at I and loading from the same I restores them exactly, whatever the
registers held in between, for every X and every I in range. Tier 2. -/
def Obligations.StoreThenLoadRestoresRegisters : Prop :=
  ∀ (x : Nibble) (s : State), BlockInRange s (x.val + 1) →
    ∃ t, exec (.store x) s = .next t ∧
      ∀ u : State, u.cfg = t.cfg → u.mem = t.mem → u.I = s.I →
        ∃ v, exec (.load x) u = .next v ∧ (∀ k : Nibble, k ≤ x → v.getV k = s.getV k) ∧
          ∀ k : Nibble, x < k → v.getV k = u.getV k

/-! ## Display -/

/-- R27, R101: every cell false, exactly one Clear whatever the display held, VF and all else unchanged; the word is
exactly 0x00E0. Tier 1. -/
def Obligations.ClearScreenClearsAndEmitsOnce : Prop :=
  (∀ w : Word, decode w = .ok .cls ↔ w = 0x00E0) ∧
  ∀ s : State, ∃ t, exec .cls s = .next t ∧ (∀ j, t.pixel j = false) ∧ t.feed = s.feed ++ [.clear] ∧
    t = { s with fb := t.fb, feed := t.feed } ∧ SameMemory s t

/-- R102, R26: DXYN flips exactly the cells the sprite covers, clipped at the right and bottom edges with the start
position wrapped, emits one Set per flip in order, sets VF to 1 iff a covered cell was set, and changes nothing else
(decisions D19, D20, D21; the sprite layout is general knowledge, K15). Tier 2. -/
def Obligations.DrawXorsTheSprite : Prop :=
  ∀ (x y n : Nibble) (s : State), BlockInRange s (visibleRows s y n) ∨ visibleRows s y n = 0 →
    ∃ t, exec (.drw x y n) s = .next t ∧
      (∀ col row, col < 64 → row < 32 →
        (Covers s x y n col row → t.pixel (cellIndex col row) = !s.pixel (cellIndex col row)) ∧
        (¬ Covers s x y n col row → t.pixel (cellIndex col row) = s.pixel (cellIndex col row))) ∧
      t.feed = s.feed ++ drawEvents s x y n ∧
      ((∃ col row, Covers s x y n col row ∧ s.pixel (cellIndex col row) = true) → t.getV 15 = 1) ∧
      ((∀ col row, Covers s x y n col row → s.pixel (cellIndex col row) = false) → t.getV 15 = 0) ∧
      (∀ r, r ≠ 15 → t.getV r = s.getV r) ∧
      t = { s with V := t.V, fb := t.fb, feed := t.feed } ∧ SameMemory s t

/-- R103, the double-draw law (derived there from R102): two consecutive executions of one DXYN with X, Y ≠ F restore the
framebuffer and append 2·|P| Set events, P the set of covered cells; the first VF is 1 iff a cell of P was set before the
first draw, the second iff one was clear; the two differ exactly when P is not empty and its cells were all set or all
clear. Tier 2. -/
def Obligations.DrawingTwiceRestoresTheDisplay : Prop :=
  ∀ (x y n : Nibble) (s : State), x ≠ 15 → y ≠ 15 →
    (BlockInRange s (visibleRows s y n) ∨ visibleRows s y n = 0) →
    ∃ (t u : State) (P : Finset (Fin 2048)), exec (.drw x y n) s = .next t ∧ exec (.drw x y n) t = .next u ∧
      (∀ col row, col < 64 → row < 32 → (cellIndex col row ∈ P ↔ Covers s x y n col row)) ∧
      u.fb = s.fb ∧ u.feed = s.feed ++ drawEvents s x y n ++ drawEvents t x y n ∧
      (drawEvents s x y n).length = P.card ∧ (drawEvents t x y n).length = P.card ∧
      (t.getV 15 = 1 ↔ ∃ col row, Covers s x y n col row ∧ s.pixel (cellIndex col row) = true) ∧
      (t.getV 15 = 0 ↔ ∀ col row, Covers s x y n col row → s.pixel (cellIndex col row) = false) ∧
      (u.getV 15 = 1 ↔ ∃ col row, Covers s x y n col row ∧ s.pixel (cellIndex col row) = false) ∧
      (u.getV 15 = 0 ↔ ∀ col row, Covers s x y n col row → s.pixel (cellIndex col row) = true) ∧
      (t.getV 15 ≠ u.getV 15 ↔ (∃ col row, Covers s x y n col row) ∧
        ((∀ col row, Covers s x y n col row → s.pixel (cellIndex col row) = true) ∨
          ∀ col row, Covers s x y n col row → s.pixel (cellIndex col row) = false))

/-! ## Keypad and timers -/

/-- R104, R105, R23: the key skips test the press state of the key VX names and change only `pc`; a value above F is a
fault (decision D14; the encodings are general knowledge, K16). Tier 2. -/
def Obligations.KeySkips : Prop :=
  ∀ (x k : Nibble) (s : State),
    ((s.getV x).toNat = k.val →
      (∃ t, exec (.skp x) s = .next t ∧ OnlyPc s t (if s.isPressed k = true then s.pc + 2 else s.pc)) ∧
      (∃ t, exec (.sknp x) s = .next t ∧ OnlyPc s t (if s.isPressed k = true then s.pc else s.pc + 2))) ∧
    ((s.getV x).toNat > 15 →
      FaultsWith (.skp x) s (.keyOutOfRange (s.getV x)) ∧ FaultsWith (.sknp x) s (.keyOutOfRange (s.getV x)))

/-- R106, R24: a pending release is consumed and stored in VX; with none pending `pc` goes back by 2 and nothing else
changes. Tier 1. -/
def Obligations.KeyWaitConsumesOrRetries : Prop :=
  ∀ (x : Nibble) (s : State),
    (∀ k : Nibble, s.released = some k → ∃ t, exec (.ldVxK x) s = .next t ∧ (t.getV x).toNat = k.val ∧
      t.released = none ∧ t = { s with V := t.V, released := none } ∧ SameMemory s t ∧
      ∀ r, r ≠ x → t.getV r = s.getV r) ∧
    (s.released = none → ∃ t, exec (.ldVxK x) s = .next t ∧ OnlyPc s t (s.pc - 2))

/-- R106: key-wait with no pending release does not advance the program counter across any number of cycles, whatever
ticks and presses arrive, as long as no key is released; registers and memory are unchanged. Cycles past the queued
inputs have no event (log entry 3). Tier 2. -/
def Obligations.KeyWaitHoldsWithoutARelease : Prop :=
  ∀ (n : Nat) (x : Nibble) (w : Word) (s : State), s.fault = none → s.released = none → s.fetchWord = .ok w →
    decode w = .ok (.ldVxK x) → (∀ c ∈ s.inputs.take n, c.events.any isKeyUp = false) →
    ∃ t, s.cycles n = .next t ∧ t.pc = s.pc ∧ t.V = s.V ∧ t.mem = s.mem ∧ t.released = none ∧ t.fault = none

/-- R107, R108, R109: FX07 reads DT, FX15 and FX18 write DT and ST, and nothing else (general knowledge, K17). Tier 1. -/
def Obligations.TimerTransfers : Prop :=
  ∀ (x : Nibble) (s : State),
    (∃ t, exec (.ldVxDt x) s = .next t ∧ t.getV x = s.DT ∧ OnlyRegs s t [x]) ∧
    (∃ t, exec (.ldDtVx x) s = .next t ∧ t.DT = s.getV x ∧ t = { s with DT := t.DT } ∧ SameMemory s t) ∧
    (∃ t, exec (.ldStVx x) s = .next t ∧ t.ST = s.getV x ∧ t = { s with ST := t.ST } ∧ SameMemory s t)
end

