-- ==== Sys2Proof/Laws/Encoding.lean ====
section
/-! SUPPORT. The fields of an assembled word, and a word from its fields: the decoder and the encoder meet here. -/

namespace Sys2Proof

/-! ### Fields as arithmetic on the word's value -/

theorem opField_toNat (w : Word) : (opField w).toNat = w.toNat / 4096 := by
  have := w.isLt
  simp [opField, Nat.shiftRight_eq_div_pow]; omega

theorem xField_val (w : Word) : (xField w).val = w.toNat / 256 % 16 := by
  simp [xField, Nat.shiftRight_eq_div_pow]

theorem yField_val (w : Word) : (yField w).val = w.toNat / 16 % 16 := by
  simp [yField, Nat.shiftRight_eq_div_pow]

theorem nField_val (w : Word) : (nField w).val = w.toNat % 16 := by
  simp [nField]

theorem nnField_toNat (w : Word) : (nnField w).toNat = w.toNat % 256 := by
  simp [nnField]

theorem nnnField_toNat (w : Word) : (nnnField w).toNat = w.toNat % 4096 := by
  simp [nnnField]

/-! ### The three assembled forms -/

theorem ofNibbles_toNat {op x y n : Nat} (ho : op < 16) (hx : x < 16) (hy : y < 16) (hn : n < 16) :
    (ofNibbles op x y n).toNat = op * 4096 + x * 256 + y * 16 + n := by
  simp [ofNibbles]; omega

theorem ofXNN_toNat {op x nn : Nat} (ho : op < 16) (hx : x < 16) (hn : nn < 256) :
    (ofXNN op x nn).toNat = op * 4096 + x * 256 + nn := by
  simp [ofXNN]; omega

theorem ofNNN_toNat {op nnn : Nat} (ho : op < 16) (hn : nnn < 4096) :
    (ofNNN op nnn).toNat = op * 4096 + nnn := by
  simp [ofNNN]; omega

/-! ### The fields of the assembled forms (R51) -/

theorem opField_ofNNN {op : Nat} (ho : op < 16) (nnn : Addr12) : (opField (ofNNN op nnn.toNat)).toNat = op := by
  rw [opField_toNat, ofNNN_toNat ho nnn.isLt]; omega

theorem nnnField_ofNNN {op : Nat} (ho : op < 16) (nnn : Addr12) : nnnField (ofNNN op nnn.toNat) = nnn :=
  BitVec.eq_of_toNat_eq (by rw [nnnField_toNat, ofNNN_toNat ho nnn.isLt]; omega)

theorem opField_ofXNN {op nn : Nat} (ho : op < 16) (hn : nn < 256) (x : Nibble) :
    (opField (ofXNN op x nn)).toNat = op := by
  rw [opField_toNat, ofXNN_toNat ho x.isLt hn]; omega

theorem xField_ofXNN {op nn : Nat} (ho : op < 16) (hn : nn < 256) (x : Nibble) : xField (ofXNN op x nn) = x :=
  Fin.ext (by rw [xField_val, ofXNN_toNat ho x.isLt hn]; omega)

theorem nnField_ofXNN {op nn : Nat} (ho : op < 16) (hn : nn < 256) (x : Nibble) :
    (nnField (ofXNN op x nn)).toNat = nn := by
  rw [nnField_toNat, ofXNN_toNat ho x.isLt hn]; omega

theorem opField_ofXNN_byte {op : Nat} (ho : op < 16) (x : Nibble) (nn : Byte) :
    (opField (ofXNN op x nn.toNat)).toNat = op := opField_ofXNN ho nn.isLt x

theorem xField_ofXNN_byte {op : Nat} (ho : op < 16) (x : Nibble) (nn : Byte) :
    xField (ofXNN op x nn.toNat) = x := xField_ofXNN ho nn.isLt x

theorem nnField_ofXNN_byte {op : Nat} (ho : op < 16) (x : Nibble) (nn : Byte) :
    nnField (ofXNN op x nn.toNat) = nn := BitVec.eq_of_toNat_eq (nnField_ofXNN ho nn.isLt x)

theorem opField_ofNibbles {op n : Nat} (ho : op < 16) (hn : n < 16) (x y : Nibble) :
    (opField (ofNibbles op x y n)).toNat = op := by
  rw [opField_toNat, ofNibbles_toNat ho x.isLt y.isLt hn]; omega

theorem xField_ofNibbles {op n : Nat} (ho : op < 16) (hn : n < 16) (x y : Nibble) :
    xField (ofNibbles op x y n) = x :=
  Fin.ext (by rw [xField_val, ofNibbles_toNat ho x.isLt y.isLt hn]; omega)

theorem yField_ofNibbles {op n : Nat} (ho : op < 16) (hn : n < 16) (x y : Nibble) :
    yField (ofNibbles op x y n) = y :=
  Fin.ext (by rw [yField_val, ofNibbles_toNat ho x.isLt y.isLt hn]; omega)

theorem nField_ofNibbles {op n : Nat} (ho : op < 16) (hn : n < 16) (x y : Nibble) :
    (nField (ofNibbles op x y n)).val = n := by
  rw [nField_val, ofNibbles_toNat ho x.isLt y.isLt hn]; omega

/-! ### Bytes of a word -/

theorem highByte_toNat (w : Word) : (highByte w).toNat = w.toNat / 256 := by
  have := w.isLt
  simp [highByte, Nat.shiftRight_eq_div_pow]; omega

theorem lowByte_toNat (w : Word) : (lowByte w).toNat = w.toNat % 256 := by
  simp [lowByte]

/-- Big-endian: the first byte is the high one (R41). -/
theorem wordOfBytes_toNat (hi lo : Byte) : (wordOfBytes hi lo).toNat = hi.toNat * 256 + lo.toNat := by
  have h1 := hi.isLt
  have h2 := lo.isLt
  simp only [wordOfBytes, BitVec.toNat_append]
  rw [← Nat.shiftLeft_add_eq_or_of_lt (by simpa using h2), Nat.shiftLeft_eq]

theorem wordOfBytes_high_low (w : Word) : wordOfBytes (highByte w) (lowByte w) = w := by
  apply BitVec.eq_of_toNat_eq
  rw [wordOfBytes_toNat, highByte_toNat, lowByte_toNat]; omega

/-! ### A word under the masks of the opcode table (R54) -/

theorem mask_FFFF (w : Word) : w &&& 0xFFFF = w := by
  ext i hi; interval_cases i <;> simp

theorem mask_F000_toNat (w : Word) : (w &&& 0xF000).toNat = w.toNat / 4096 * 4096 := by
  have e : (w &&& (0xF000 : Word)) = ((w >>> 12) <<< 12 : Word) := by
    ext i hi; interval_cases i <;> simp
  have := w.isLt
  rw [e]; simp [Nat.shiftRight_eq_div_pow, Nat.shiftLeft_eq]; omega

theorem mask_000F_toNat (w : Word) : (w &&& 0x000F).toNat = w.toNat % 16 := by
  rw [BitVec.toNat_and]; exact Nat.and_two_pow_sub_one_eq_mod w.toNat 4

theorem mask_00FF_toNat (w : Word) : (w &&& 0x00FF).toNat = w.toNat % 256 := by
  rw [BitVec.toNat_and]; exact Nat.and_two_pow_sub_one_eq_mod w.toNat 8

theorem mask_F00F_toNat (w : Word) : (w &&& 0xF00F).toNat = w.toNat / 4096 * 4096 + w.toNat % 16 := by
  have e : w &&& 0xF00F = (w &&& 0xF000) + (w &&& 0x000F) := by
    rw [BitVec.add_eq_or_of_and_eq_zero]
    · ext i hi; interval_cases i <;> simp
    · ext i hi; interval_cases i <;> simp
  have := w.isLt
  rw [e, BitVec.toNat_add, mask_F000_toNat, mask_000F_toNat]; omega

theorem mask_F0FF_toNat (w : Word) : (w &&& 0xF0FF).toNat = w.toNat / 4096 * 4096 + w.toNat % 256 := by
  have e : w &&& 0xF0FF = (w &&& 0xF000) + (w &&& 0x00FF) := by
    rw [BitVec.add_eq_or_of_and_eq_zero]
    · ext i hi; interval_cases i <;> simp
    · ext i hi; interval_cases i <;> simp
  have := w.isLt
  rw [e, BitVec.toNat_add, mask_F000_toNat, mask_00FF_toNat]; omega

end Sys2Proof
end

