-- ==== Sys2Proof/Laws/State.lean ====
section
/-! SUPPORT. One lemma per field of State per update: what each named operation leaves as it was, and what it writes.
Tagged for simp, so that no later proof unfolds a record update. -/

namespace Sys2Proof.Machine

/-! ### The three moves of pc are writes of pc -/

@[simp] theorem State.skip_eq (s : State) : s.skip = s.setPc (s.pc + 2) := rfl
@[simp] theorem State.rewind_eq (s : State) : s.rewind = s.setPc (s.pc - 2) := rfl
@[simp] theorem State.advance_eq (s : State) : s.advance = s.setPc (s.pc + 2) := rfl
@[simp] theorem State.writeByte_eq (s : State) (a : Nat) (b : Byte) : s.writeByte a b = s.writeCell (cellOf a) b := rfl

/-! ### setV -/

@[simp] theorem State.setV_cfg (s : State) (r : Nibble) (b : Byte) : (s.setV r b).cfg = s.cfg := rfl
@[simp] theorem State.setV_inputs (s : State) (r : Nibble) (b : Byte) : (s.setV r b).inputs = s.inputs := rfl
@[simp] theorem State.setV_rnd (s : State) (r : Nibble) (b : Byte) : (s.setV r b).rnd = s.rnd := rfl
@[simp] theorem State.setV_draws (s : State) (r : Nibble) (b : Byte) : (s.setV r b).draws = s.draws := rfl
@[simp] theorem State.setV_mem (s : State) (r : Nibble) (b : Byte) : (s.setV r b).mem = s.mem := rfl
@[simp] theorem State.setV_V (s : State) (r : Nibble) (b : Byte) : (s.setV r b).V = s.V.set r.val b := rfl
@[simp] theorem State.setV_I (s : State) (r : Nibble) (b : Byte) : (s.setV r b).I = s.I := rfl
@[simp] theorem State.setV_pc (s : State) (r : Nibble) (b : Byte) : (s.setV r b).pc = s.pc := rfl
@[simp] theorem State.setV_stack (s : State) (r : Nibble) (b : Byte) : (s.setV r b).stack = s.stack := rfl
@[simp] theorem State.setV_DT (s : State) (r : Nibble) (b : Byte) : (s.setV r b).DT = s.DT := rfl
@[simp] theorem State.setV_ST (s : State) (r : Nibble) (b : Byte) : (s.setV r b).ST = s.ST := rfl
@[simp] theorem State.setV_keys (s : State) (r : Nibble) (b : Byte) : (s.setV r b).keys = s.keys := rfl
@[simp] theorem State.setV_released (s : State) (r : Nibble) (b : Byte) : (s.setV r b).released = s.released := rfl
@[simp] theorem State.setV_stop (s : State) (r : Nibble) (b : Byte) : (s.setV r b).stop = s.stop := rfl
@[simp] theorem State.setV_fb (s : State) (r : Nibble) (b : Byte) : (s.setV r b).fb = s.fb := rfl
@[simp] theorem State.setV_feed (s : State) (r : Nibble) (b : Byte) : (s.setV r b).feed = s.feed := rfl
@[simp] theorem State.setV_fault (s : State) (r : Nibble) (b : Byte) : (s.setV r b).fault = s.fault := rfl
@[simp] theorem State.setV_readByte (s : State) (r : Nibble) (b : Byte) (n : Nat) : (s.setV r b).readByte n = s.readByte n := rfl
@[simp] theorem State.setV_memRead (s : State) (r : Nibble) (b : Byte) (n : Nat) : (s.setV r b).memRead n = s.memRead n := rfl
@[simp] theorem State.setV_pixel (s : State) (r : Nibble) (b : Byte) (px : Fin 2048) : (s.setV r b).pixel px = s.pixel px := rfl
@[simp] theorem State.setV_isPressed (s : State) (r : Nibble) (b : Byte) (k : Nibble) : (s.setV r b).isPressed k = s.isPressed k := rfl

/-! ### setResultAndFlag -/

@[simp] theorem State.setResultAndFlag_cfg (s : State) (x : Nibble) (b f : Byte) : (s.setResultAndFlag x b f).cfg = s.cfg := rfl
@[simp] theorem State.setResultAndFlag_inputs (s : State) (x : Nibble) (b f : Byte) : (s.setResultAndFlag x b f).inputs = s.inputs := rfl
@[simp] theorem State.setResultAndFlag_rnd (s : State) (x : Nibble) (b f : Byte) : (s.setResultAndFlag x b f).rnd = s.rnd := rfl
@[simp] theorem State.setResultAndFlag_draws (s : State) (x : Nibble) (b f : Byte) : (s.setResultAndFlag x b f).draws = s.draws := rfl
@[simp] theorem State.setResultAndFlag_mem (s : State) (x : Nibble) (b f : Byte) : (s.setResultAndFlag x b f).mem = s.mem := rfl
@[simp] theorem State.setResultAndFlag_I (s : State) (x : Nibble) (b f : Byte) : (s.setResultAndFlag x b f).I = s.I := rfl
@[simp] theorem State.setResultAndFlag_pc (s : State) (x : Nibble) (b f : Byte) : (s.setResultAndFlag x b f).pc = s.pc := rfl
@[simp] theorem State.setResultAndFlag_stack (s : State) (x : Nibble) (b f : Byte) : (s.setResultAndFlag x b f).stack = s.stack := rfl
@[simp] theorem State.setResultAndFlag_DT (s : State) (x : Nibble) (b f : Byte) : (s.setResultAndFlag x b f).DT = s.DT := rfl
@[simp] theorem State.setResultAndFlag_ST (s : State) (x : Nibble) (b f : Byte) : (s.setResultAndFlag x b f).ST = s.ST := rfl
@[simp] theorem State.setResultAndFlag_keys (s : State) (x : Nibble) (b f : Byte) : (s.setResultAndFlag x b f).keys = s.keys := rfl
@[simp] theorem State.setResultAndFlag_released (s : State) (x : Nibble) (b f : Byte) : (s.setResultAndFlag x b f).released = s.released := rfl
@[simp] theorem State.setResultAndFlag_stop (s : State) (x : Nibble) (b f : Byte) : (s.setResultAndFlag x b f).stop = s.stop := rfl
@[simp] theorem State.setResultAndFlag_fb (s : State) (x : Nibble) (b f : Byte) : (s.setResultAndFlag x b f).fb = s.fb := rfl
@[simp] theorem State.setResultAndFlag_feed (s : State) (x : Nibble) (b f : Byte) : (s.setResultAndFlag x b f).feed = s.feed := rfl
@[simp] theorem State.setResultAndFlag_fault (s : State) (x : Nibble) (b f : Byte) : (s.setResultAndFlag x b f).fault = s.fault := rfl
@[simp] theorem State.setResultAndFlag_readByte (s : State) (x : Nibble) (b f : Byte) (n : Nat) : (s.setResultAndFlag x b f).readByte n = s.readByte n := rfl
@[simp] theorem State.setResultAndFlag_memRead (s : State) (x : Nibble) (b f : Byte) (n : Nat) : (s.setResultAndFlag x b f).memRead n = s.memRead n := rfl
@[simp] theorem State.setResultAndFlag_pixel (s : State) (x : Nibble) (b f : Byte) (px : Fin 2048) : (s.setResultAndFlag x b f).pixel px = s.pixel px := rfl
@[simp] theorem State.setResultAndFlag_isPressed (s : State) (x : Nibble) (b f : Byte) (k : Nibble) : (s.setResultAndFlag x b f).isPressed k = s.isPressed k := rfl

/-! ### flagIndex -/

@[simp] theorem State.flagIndex_cfg (s : State) : s.flagIndex.cfg = s.cfg := by unfold State.flagIndex; (repeat' split) <;> rfl
@[simp] theorem State.flagIndex_inputs (s : State) : s.flagIndex.inputs = s.inputs := by unfold State.flagIndex; (repeat' split) <;> rfl
@[simp] theorem State.flagIndex_rnd (s : State) : s.flagIndex.rnd = s.rnd := by unfold State.flagIndex; (repeat' split) <;> rfl
@[simp] theorem State.flagIndex_draws (s : State) : s.flagIndex.draws = s.draws := by unfold State.flagIndex; (repeat' split) <;> rfl
@[simp] theorem State.flagIndex_mem (s : State) : s.flagIndex.mem = s.mem := by unfold State.flagIndex; (repeat' split) <;> rfl
@[simp] theorem State.flagIndex_I (s : State) : s.flagIndex.I = s.I := by unfold State.flagIndex; (repeat' split) <;> rfl
@[simp] theorem State.flagIndex_pc (s : State) : s.flagIndex.pc = s.pc := by unfold State.flagIndex; (repeat' split) <;> rfl
@[simp] theorem State.flagIndex_stack (s : State) : s.flagIndex.stack = s.stack := by unfold State.flagIndex; (repeat' split) <;> rfl
@[simp] theorem State.flagIndex_DT (s : State) : s.flagIndex.DT = s.DT := by unfold State.flagIndex; (repeat' split) <;> rfl
@[simp] theorem State.flagIndex_ST (s : State) : s.flagIndex.ST = s.ST := by unfold State.flagIndex; (repeat' split) <;> rfl
@[simp] theorem State.flagIndex_keys (s : State) : s.flagIndex.keys = s.keys := by unfold State.flagIndex; (repeat' split) <;> rfl
@[simp] theorem State.flagIndex_released (s : State) : s.flagIndex.released = s.released := by unfold State.flagIndex; (repeat' split) <;> rfl
@[simp] theorem State.flagIndex_stop (s : State) : s.flagIndex.stop = s.stop := by unfold State.flagIndex; (repeat' split) <;> rfl
@[simp] theorem State.flagIndex_fb (s : State) : s.flagIndex.fb = s.fb := by unfold State.flagIndex; (repeat' split) <;> rfl
@[simp] theorem State.flagIndex_feed (s : State) : s.flagIndex.feed = s.feed := by unfold State.flagIndex; (repeat' split) <;> rfl
@[simp] theorem State.flagIndex_fault (s : State) : s.flagIndex.fault = s.fault := by unfold State.flagIndex; (repeat' split) <;> rfl
@[simp] theorem State.flagIndex_readByte (s : State) (n : Nat) : s.flagIndex.readByte n = s.readByte n := by simp [State.readByte, State.readCell]
@[simp] theorem State.flagIndex_memRead (s : State) (n : Nat) : s.flagIndex.memRead n = s.memRead n := by simp [State.memRead]
@[simp] theorem State.flagIndex_pixel (s : State) (px : Fin 2048) : s.flagIndex.pixel px = s.pixel px := by simp [State.pixel]
@[simp] theorem State.flagIndex_isPressed (s : State) (k : Nibble) : s.flagIndex.isPressed k = s.isPressed k := by simp [State.isPressed]

/-! ### setI -/

@[simp] theorem State.setI_cfg (s : State) (w : Word) : (s.setI w).cfg = s.cfg := rfl
@[simp] theorem State.setI_inputs (s : State) (w : Word) : (s.setI w).inputs = s.inputs := rfl
@[simp] theorem State.setI_rnd (s : State) (w : Word) : (s.setI w).rnd = s.rnd := rfl
@[simp] theorem State.setI_draws (s : State) (w : Word) : (s.setI w).draws = s.draws := rfl
@[simp] theorem State.setI_mem (s : State) (w : Word) : (s.setI w).mem = s.mem := rfl
@[simp] theorem State.setI_V (s : State) (w : Word) : (s.setI w).V = s.V := rfl
@[simp] theorem State.setI_I (s : State) (w : Word) : (s.setI w).I = w := rfl
@[simp] theorem State.setI_pc (s : State) (w : Word) : (s.setI w).pc = s.pc := rfl
@[simp] theorem State.setI_stack (s : State) (w : Word) : (s.setI w).stack = s.stack := rfl
@[simp] theorem State.setI_DT (s : State) (w : Word) : (s.setI w).DT = s.DT := rfl
@[simp] theorem State.setI_ST (s : State) (w : Word) : (s.setI w).ST = s.ST := rfl
@[simp] theorem State.setI_keys (s : State) (w : Word) : (s.setI w).keys = s.keys := rfl
@[simp] theorem State.setI_released (s : State) (w : Word) : (s.setI w).released = s.released := rfl
@[simp] theorem State.setI_stop (s : State) (w : Word) : (s.setI w).stop = s.stop := rfl
@[simp] theorem State.setI_fb (s : State) (w : Word) : (s.setI w).fb = s.fb := rfl
@[simp] theorem State.setI_feed (s : State) (w : Word) : (s.setI w).feed = s.feed := rfl
@[simp] theorem State.setI_fault (s : State) (w : Word) : (s.setI w).fault = s.fault := rfl
@[simp] theorem State.setI_getV (s : State) (w : Word) (k : Nibble) : (s.setI w).getV k = s.getV k := rfl
@[simp] theorem State.setI_readByte (s : State) (w : Word) (n : Nat) : (s.setI w).readByte n = s.readByte n := rfl
@[simp] theorem State.setI_memRead (s : State) (w : Word) (n : Nat) : (s.setI w).memRead n = s.memRead n := rfl
@[simp] theorem State.setI_pixel (s : State) (w : Word) (px : Fin 2048) : (s.setI w).pixel px = s.pixel px := rfl
@[simp] theorem State.setI_isPressed (s : State) (w : Word) (k : Nibble) : (s.setI w).isPressed k = s.isPressed k := rfl

/-! ### setPc -/

@[simp] theorem State.setPc_cfg (s : State) (w : Word) : (s.setPc w).cfg = s.cfg := rfl
@[simp] theorem State.setPc_inputs (s : State) (w : Word) : (s.setPc w).inputs = s.inputs := rfl
@[simp] theorem State.setPc_rnd (s : State) (w : Word) : (s.setPc w).rnd = s.rnd := rfl
@[simp] theorem State.setPc_draws (s : State) (w : Word) : (s.setPc w).draws = s.draws := rfl
@[simp] theorem State.setPc_mem (s : State) (w : Word) : (s.setPc w).mem = s.mem := rfl
@[simp] theorem State.setPc_V (s : State) (w : Word) : (s.setPc w).V = s.V := rfl
@[simp] theorem State.setPc_I (s : State) (w : Word) : (s.setPc w).I = s.I := rfl
@[simp] theorem State.setPc_pc (s : State) (w : Word) : (s.setPc w).pc = w := rfl
@[simp] theorem State.setPc_stack (s : State) (w : Word) : (s.setPc w).stack = s.stack := rfl
@[simp] theorem State.setPc_DT (s : State) (w : Word) : (s.setPc w).DT = s.DT := rfl
@[simp] theorem State.setPc_ST (s : State) (w : Word) : (s.setPc w).ST = s.ST := rfl
@[simp] theorem State.setPc_keys (s : State) (w : Word) : (s.setPc w).keys = s.keys := rfl
@[simp] theorem State.setPc_released (s : State) (w : Word) : (s.setPc w).released = s.released := rfl
@[simp] theorem State.setPc_stop (s : State) (w : Word) : (s.setPc w).stop = s.stop := rfl
@[simp] theorem State.setPc_fb (s : State) (w : Word) : (s.setPc w).fb = s.fb := rfl
@[simp] theorem State.setPc_feed (s : State) (w : Word) : (s.setPc w).feed = s.feed := rfl
@[simp] theorem State.setPc_fault (s : State) (w : Word) : (s.setPc w).fault = s.fault := rfl
@[simp] theorem State.setPc_getV (s : State) (w : Word) (k : Nibble) : (s.setPc w).getV k = s.getV k := rfl
@[simp] theorem State.setPc_readByte (s : State) (w : Word) (n : Nat) : (s.setPc w).readByte n = s.readByte n := rfl
@[simp] theorem State.setPc_memRead (s : State) (w : Word) (n : Nat) : (s.setPc w).memRead n = s.memRead n := rfl
@[simp] theorem State.setPc_pixel (s : State) (w : Word) (px : Fin 2048) : (s.setPc w).pixel px = s.pixel px := rfl
@[simp] theorem State.setPc_isPressed (s : State) (w : Word) (k : Nibble) : (s.setPc w).isPressed k = s.isPressed k := rfl

/-! ### setDT -/

@[simp] theorem State.setDT_cfg (s : State) (b : Byte) : (s.setDT b).cfg = s.cfg := rfl
@[simp] theorem State.setDT_inputs (s : State) (b : Byte) : (s.setDT b).inputs = s.inputs := rfl
@[simp] theorem State.setDT_rnd (s : State) (b : Byte) : (s.setDT b).rnd = s.rnd := rfl
@[simp] theorem State.setDT_draws (s : State) (b : Byte) : (s.setDT b).draws = s.draws := rfl
@[simp] theorem State.setDT_mem (s : State) (b : Byte) : (s.setDT b).mem = s.mem := rfl
@[simp] theorem State.setDT_V (s : State) (b : Byte) : (s.setDT b).V = s.V := rfl
@[simp] theorem State.setDT_I (s : State) (b : Byte) : (s.setDT b).I = s.I := rfl
@[simp] theorem State.setDT_pc (s : State) (b : Byte) : (s.setDT b).pc = s.pc := rfl
@[simp] theorem State.setDT_stack (s : State) (b : Byte) : (s.setDT b).stack = s.stack := rfl
@[simp] theorem State.setDT_DT (s : State) (b : Byte) : (s.setDT b).DT = b := rfl
@[simp] theorem State.setDT_ST (s : State) (b : Byte) : (s.setDT b).ST = s.ST := rfl
@[simp] theorem State.setDT_keys (s : State) (b : Byte) : (s.setDT b).keys = s.keys := rfl
@[simp] theorem State.setDT_released (s : State) (b : Byte) : (s.setDT b).released = s.released := rfl
@[simp] theorem State.setDT_stop (s : State) (b : Byte) : (s.setDT b).stop = s.stop := rfl
@[simp] theorem State.setDT_fb (s : State) (b : Byte) : (s.setDT b).fb = s.fb := rfl
@[simp] theorem State.setDT_feed (s : State) (b : Byte) : (s.setDT b).feed = s.feed := rfl
@[simp] theorem State.setDT_fault (s : State) (b : Byte) : (s.setDT b).fault = s.fault := rfl
@[simp] theorem State.setDT_getV (s : State) (b : Byte) (k : Nibble) : (s.setDT b).getV k = s.getV k := rfl
@[simp] theorem State.setDT_readByte (s : State) (b : Byte) (n : Nat) : (s.setDT b).readByte n = s.readByte n := rfl
@[simp] theorem State.setDT_memRead (s : State) (b : Byte) (n : Nat) : (s.setDT b).memRead n = s.memRead n := rfl
@[simp] theorem State.setDT_pixel (s : State) (b : Byte) (px : Fin 2048) : (s.setDT b).pixel px = s.pixel px := rfl
@[simp] theorem State.setDT_isPressed (s : State) (b : Byte) (k : Nibble) : (s.setDT b).isPressed k = s.isPressed k := rfl

/-! ### setST -/

@[simp] theorem State.setST_cfg (s : State) (b : Byte) : (s.setST b).cfg = s.cfg := rfl
@[simp] theorem State.setST_inputs (s : State) (b : Byte) : (s.setST b).inputs = s.inputs := rfl
@[simp] theorem State.setST_rnd (s : State) (b : Byte) : (s.setST b).rnd = s.rnd := rfl
@[simp] theorem State.setST_draws (s : State) (b : Byte) : (s.setST b).draws = s.draws := rfl
@[simp] theorem State.setST_mem (s : State) (b : Byte) : (s.setST b).mem = s.mem := rfl
@[simp] theorem State.setST_V (s : State) (b : Byte) : (s.setST b).V = s.V := rfl
@[simp] theorem State.setST_I (s : State) (b : Byte) : (s.setST b).I = s.I := rfl
@[simp] theorem State.setST_pc (s : State) (b : Byte) : (s.setST b).pc = s.pc := rfl
@[simp] theorem State.setST_stack (s : State) (b : Byte) : (s.setST b).stack = s.stack := rfl
@[simp] theorem State.setST_DT (s : State) (b : Byte) : (s.setST b).DT = s.DT := rfl
@[simp] theorem State.setST_ST (s : State) (b : Byte) : (s.setST b).ST = b := rfl
@[simp] theorem State.setST_keys (s : State) (b : Byte) : (s.setST b).keys = s.keys := rfl
@[simp] theorem State.setST_released (s : State) (b : Byte) : (s.setST b).released = s.released := rfl
@[simp] theorem State.setST_stop (s : State) (b : Byte) : (s.setST b).stop = s.stop := rfl
@[simp] theorem State.setST_fb (s : State) (b : Byte) : (s.setST b).fb = s.fb := rfl
@[simp] theorem State.setST_feed (s : State) (b : Byte) : (s.setST b).feed = s.feed := rfl
@[simp] theorem State.setST_fault (s : State) (b : Byte) : (s.setST b).fault = s.fault := rfl
@[simp] theorem State.setST_getV (s : State) (b : Byte) (k : Nibble) : (s.setST b).getV k = s.getV k := rfl
@[simp] theorem State.setST_readByte (s : State) (b : Byte) (n : Nat) : (s.setST b).readByte n = s.readByte n := rfl
@[simp] theorem State.setST_memRead (s : State) (b : Byte) (n : Nat) : (s.setST b).memRead n = s.memRead n := rfl
@[simp] theorem State.setST_pixel (s : State) (b : Byte) (px : Fin 2048) : (s.setST b).pixel px = s.pixel px := rfl
@[simp] theorem State.setST_isPressed (s : State) (b : Byte) (k : Nibble) : (s.setST b).isPressed k = s.isPressed k := rfl

/-! ### push -/

@[simp] theorem State.push_cfg (s : State) (w : Word) : (s.push w).cfg = s.cfg := rfl
@[simp] theorem State.push_inputs (s : State) (w : Word) : (s.push w).inputs = s.inputs := rfl
@[simp] theorem State.push_rnd (s : State) (w : Word) : (s.push w).rnd = s.rnd := rfl
@[simp] theorem State.push_draws (s : State) (w : Word) : (s.push w).draws = s.draws := rfl
@[simp] theorem State.push_mem (s : State) (w : Word) : (s.push w).mem = s.mem := rfl
@[simp] theorem State.push_V (s : State) (w : Word) : (s.push w).V = s.V := rfl
@[simp] theorem State.push_I (s : State) (w : Word) : (s.push w).I = s.I := rfl
@[simp] theorem State.push_pc (s : State) (w : Word) : (s.push w).pc = s.pc := rfl
@[simp] theorem State.push_stack (s : State) (w : Word) : (s.push w).stack = s.stack ++ [w] := rfl
@[simp] theorem State.push_DT (s : State) (w : Word) : (s.push w).DT = s.DT := rfl
@[simp] theorem State.push_ST (s : State) (w : Word) : (s.push w).ST = s.ST := rfl
@[simp] theorem State.push_keys (s : State) (w : Word) : (s.push w).keys = s.keys := rfl
@[simp] theorem State.push_released (s : State) (w : Word) : (s.push w).released = s.released := rfl
@[simp] theorem State.push_stop (s : State) (w : Word) : (s.push w).stop = s.stop := rfl
@[simp] theorem State.push_fb (s : State) (w : Word) : (s.push w).fb = s.fb := rfl
@[simp] theorem State.push_feed (s : State) (w : Word) : (s.push w).feed = s.feed := rfl
@[simp] theorem State.push_fault (s : State) (w : Word) : (s.push w).fault = s.fault := rfl
@[simp] theorem State.push_getV (s : State) (w : Word) (k : Nibble) : (s.push w).getV k = s.getV k := rfl
@[simp] theorem State.push_readByte (s : State) (w : Word) (n : Nat) : (s.push w).readByte n = s.readByte n := rfl
@[simp] theorem State.push_memRead (s : State) (w : Word) (n : Nat) : (s.push w).memRead n = s.memRead n := rfl
@[simp] theorem State.push_pixel (s : State) (w : Word) (px : Fin 2048) : (s.push w).pixel px = s.pixel px := rfl
@[simp] theorem State.push_isPressed (s : State) (w : Word) (k : Nibble) : (s.push w).isPressed k = s.isPressed k := rfl

/-! ### toggle -/

@[simp] theorem State.toggle_cfg (s : State) (j : Fin 2048) : (s.toggle j).cfg = s.cfg := rfl
@[simp] theorem State.toggle_inputs (s : State) (j : Fin 2048) : (s.toggle j).inputs = s.inputs := rfl
@[simp] theorem State.toggle_rnd (s : State) (j : Fin 2048) : (s.toggle j).rnd = s.rnd := rfl
@[simp] theorem State.toggle_draws (s : State) (j : Fin 2048) : (s.toggle j).draws = s.draws := rfl
@[simp] theorem State.toggle_mem (s : State) (j : Fin 2048) : (s.toggle j).mem = s.mem := rfl
@[simp] theorem State.toggle_V (s : State) (j : Fin 2048) : (s.toggle j).V = s.V := rfl
@[simp] theorem State.toggle_I (s : State) (j : Fin 2048) : (s.toggle j).I = s.I := rfl
@[simp] theorem State.toggle_pc (s : State) (j : Fin 2048) : (s.toggle j).pc = s.pc := rfl
@[simp] theorem State.toggle_stack (s : State) (j : Fin 2048) : (s.toggle j).stack = s.stack := rfl
@[simp] theorem State.toggle_DT (s : State) (j : Fin 2048) : (s.toggle j).DT = s.DT := rfl
@[simp] theorem State.toggle_ST (s : State) (j : Fin 2048) : (s.toggle j).ST = s.ST := rfl
@[simp] theorem State.toggle_keys (s : State) (j : Fin 2048) : (s.toggle j).keys = s.keys := rfl
@[simp] theorem State.toggle_released (s : State) (j : Fin 2048) : (s.toggle j).released = s.released := rfl
@[simp] theorem State.toggle_stop (s : State) (j : Fin 2048) : (s.toggle j).stop = s.stop := rfl
@[simp] theorem State.toggle_fb (s : State) (j : Fin 2048) : (s.toggle j).fb = Grid.put s.fb j (!s.pixel j) := rfl
@[simp] theorem State.toggle_feed (s : State) (j : Fin 2048) : (s.toggle j).feed = s.feed ++ [.set j (!s.pixel j)] := rfl
@[simp] theorem State.toggle_fault (s : State) (j : Fin 2048) : (s.toggle j).fault = s.fault := rfl
@[simp] theorem State.toggle_getV (s : State) (j : Fin 2048) (k : Nibble) : (s.toggle j).getV k = s.getV k := rfl
@[simp] theorem State.toggle_readByte (s : State) (j : Fin 2048) (n : Nat) : (s.toggle j).readByte n = s.readByte n := rfl
@[simp] theorem State.toggle_memRead (s : State) (j : Fin 2048) (n : Nat) : (s.toggle j).memRead n = s.memRead n := rfl
@[simp] theorem State.toggle_isPressed (s : State) (j : Fin 2048) (k : Nibble) : (s.toggle j).isPressed k = s.isPressed k := rfl

/-! ### clearScreen -/

@[simp] theorem State.clearScreen_cfg (s : State) : s.clearScreen.cfg = s.cfg := rfl
@[simp] theorem State.clearScreen_inputs (s : State) : s.clearScreen.inputs = s.inputs := rfl
@[simp] theorem State.clearScreen_rnd (s : State) : s.clearScreen.rnd = s.rnd := rfl
@[simp] theorem State.clearScreen_draws (s : State) : s.clearScreen.draws = s.draws := rfl
@[simp] theorem State.clearScreen_mem (s : State) : s.clearScreen.mem = s.mem := rfl
@[simp] theorem State.clearScreen_V (s : State) : s.clearScreen.V = s.V := rfl
@[simp] theorem State.clearScreen_I (s : State) : s.clearScreen.I = s.I := rfl
@[simp] theorem State.clearScreen_pc (s : State) : s.clearScreen.pc = s.pc := rfl
@[simp] theorem State.clearScreen_stack (s : State) : s.clearScreen.stack = s.stack := rfl
@[simp] theorem State.clearScreen_DT (s : State) : s.clearScreen.DT = s.DT := rfl
@[simp] theorem State.clearScreen_ST (s : State) : s.clearScreen.ST = s.ST := rfl
@[simp] theorem State.clearScreen_keys (s : State) : s.clearScreen.keys = s.keys := rfl
@[simp] theorem State.clearScreen_released (s : State) : s.clearScreen.released = s.released := rfl
@[simp] theorem State.clearScreen_stop (s : State) : s.clearScreen.stop = s.stop := rfl
@[simp] theorem State.clearScreen_fb (s : State) : s.clearScreen.fb = Grid.clear := rfl
@[simp] theorem State.clearScreen_feed (s : State) : s.clearScreen.feed = s.feed ++ [.clear] := rfl
@[simp] theorem State.clearScreen_fault (s : State) : s.clearScreen.fault = s.fault := rfl
@[simp] theorem State.clearScreen_getV (s : State) (k : Nibble) : s.clearScreen.getV k = s.getV k := rfl
@[simp] theorem State.clearScreen_readByte (s : State) (n : Nat) : s.clearScreen.readByte n = s.readByte n := rfl
@[simp] theorem State.clearScreen_memRead (s : State) (n : Nat) : s.clearScreen.memRead n = s.memRead n := rfl
@[simp] theorem State.clearScreen_isPressed (s : State) (k : Nibble) : s.clearScreen.isPressed k = s.isPressed k := rfl

/-! ### takeFault -/

@[simp] theorem State.takeFault_cfg (s : State) (c : FaultCause) (w : Option Word) (p : Word) : (s.takeFault c w p).cfg = s.cfg := rfl
@[simp] theorem State.takeFault_inputs (s : State) (c : FaultCause) (w : Option Word) (p : Word) : (s.takeFault c w p).inputs = s.inputs := rfl
@[simp] theorem State.takeFault_rnd (s : State) (c : FaultCause) (w : Option Word) (p : Word) : (s.takeFault c w p).rnd = s.rnd := rfl
@[simp] theorem State.takeFault_draws (s : State) (c : FaultCause) (w : Option Word) (p : Word) : (s.takeFault c w p).draws = s.draws := rfl
@[simp] theorem State.takeFault_mem (s : State) (c : FaultCause) (w : Option Word) (p : Word) : (s.takeFault c w p).mem = s.mem := rfl
@[simp] theorem State.takeFault_V (s : State) (c : FaultCause) (w : Option Word) (p : Word) : (s.takeFault c w p).V = s.V := rfl
@[simp] theorem State.takeFault_I (s : State) (c : FaultCause) (w : Option Word) (p : Word) : (s.takeFault c w p).I = s.I := rfl
@[simp] theorem State.takeFault_pc (s : State) (c : FaultCause) (w : Option Word) (p : Word) : (s.takeFault c w p).pc = p := rfl
@[simp] theorem State.takeFault_stack (s : State) (c : FaultCause) (w : Option Word) (p : Word) : (s.takeFault c w p).stack = s.stack := rfl
@[simp] theorem State.takeFault_DT (s : State) (c : FaultCause) (w : Option Word) (p : Word) : (s.takeFault c w p).DT = s.DT := rfl
@[simp] theorem State.takeFault_ST (s : State) (c : FaultCause) (w : Option Word) (p : Word) : (s.takeFault c w p).ST = s.ST := rfl
@[simp] theorem State.takeFault_keys (s : State) (c : FaultCause) (w : Option Word) (p : Word) : (s.takeFault c w p).keys = s.keys := rfl
@[simp] theorem State.takeFault_released (s : State) (c : FaultCause) (w : Option Word) (p : Word) : (s.takeFault c w p).released = s.released := rfl
@[simp] theorem State.takeFault_stop (s : State) (c : FaultCause) (w : Option Word) (p : Word) : (s.takeFault c w p).stop = s.stop := rfl
@[simp] theorem State.takeFault_fb (s : State) (c : FaultCause) (w : Option Word) (p : Word) : (s.takeFault c w p).fb = s.fb := rfl
@[simp] theorem State.takeFault_feed (s : State) (c : FaultCause) (w : Option Word) (p : Word) : (s.takeFault c w p).feed = s.feed := rfl
@[simp] theorem State.takeFault_fault (s : State) (c : FaultCause) (w : Option Word) (p : Word) : (s.takeFault c w p).fault = some ⟨c, w, p⟩ := rfl
@[simp] theorem State.takeFault_getV (s : State) (c : FaultCause) (w : Option Word) (p : Word) (k : Nibble) : (s.takeFault c w p).getV k = s.getV k := rfl
@[simp] theorem State.takeFault_readByte (s : State) (c : FaultCause) (w : Option Word) (p : Word) (n : Nat) : (s.takeFault c w p).readByte n = s.readByte n := rfl
@[simp] theorem State.takeFault_memRead (s : State) (c : FaultCause) (w : Option Word) (p : Word) (n : Nat) : (s.takeFault c w p).memRead n = s.memRead n := rfl
@[simp] theorem State.takeFault_pixel (s : State) (c : FaultCause) (w : Option Word) (p : Word) (px : Fin 2048) : (s.takeFault c w p).pixel px = s.pixel px := rfl
@[simp] theorem State.takeFault_isPressed (s : State) (c : FaultCause) (w : Option Word) (p : Word) (k : Nibble) : (s.takeFault c w p).isPressed k = s.isPressed k := rfl

/-! ### raise -/

@[simp] theorem State.raise_cfg (s : State) (c : FaultCause) (i : Instr) : (s.raise c i).cfg = s.cfg := rfl
@[simp] theorem State.raise_inputs (s : State) (c : FaultCause) (i : Instr) : (s.raise c i).inputs = s.inputs := rfl
@[simp] theorem State.raise_rnd (s : State) (c : FaultCause) (i : Instr) : (s.raise c i).rnd = s.rnd := rfl
@[simp] theorem State.raise_draws (s : State) (c : FaultCause) (i : Instr) : (s.raise c i).draws = s.draws := rfl
@[simp] theorem State.raise_mem (s : State) (c : FaultCause) (i : Instr) : (s.raise c i).mem = s.mem := rfl
@[simp] theorem State.raise_V (s : State) (c : FaultCause) (i : Instr) : (s.raise c i).V = s.V := rfl
@[simp] theorem State.raise_I (s : State) (c : FaultCause) (i : Instr) : (s.raise c i).I = s.I := rfl
@[simp] theorem State.raise_pc (s : State) (c : FaultCause) (i : Instr) : (s.raise c i).pc = s.pc - 2 := rfl
@[simp] theorem State.raise_stack (s : State) (c : FaultCause) (i : Instr) : (s.raise c i).stack = s.stack := rfl
@[simp] theorem State.raise_DT (s : State) (c : FaultCause) (i : Instr) : (s.raise c i).DT = s.DT := rfl
@[simp] theorem State.raise_ST (s : State) (c : FaultCause) (i : Instr) : (s.raise c i).ST = s.ST := rfl
@[simp] theorem State.raise_keys (s : State) (c : FaultCause) (i : Instr) : (s.raise c i).keys = s.keys := rfl
@[simp] theorem State.raise_released (s : State) (c : FaultCause) (i : Instr) : (s.raise c i).released = s.released := rfl
@[simp] theorem State.raise_stop (s : State) (c : FaultCause) (i : Instr) : (s.raise c i).stop = s.stop := rfl
@[simp] theorem State.raise_fb (s : State) (c : FaultCause) (i : Instr) : (s.raise c i).fb = s.fb := rfl
@[simp] theorem State.raise_feed (s : State) (c : FaultCause) (i : Instr) : (s.raise c i).feed = s.feed := rfl
@[simp] theorem State.raise_fault (s : State) (c : FaultCause) (i : Instr) : (s.raise c i).fault = some ⟨c, some (encode i), s.pc - 2⟩ := rfl
@[simp] theorem State.raise_getV (s : State) (c : FaultCause) (i : Instr) (k : Nibble) : (s.raise c i).getV k = s.getV k := rfl
@[simp] theorem State.raise_readByte (s : State) (c : FaultCause) (i : Instr) (n : Nat) : (s.raise c i).readByte n = s.readByte n := rfl
@[simp] theorem State.raise_memRead (s : State) (c : FaultCause) (i : Instr) (n : Nat) : (s.raise c i).memRead n = s.memRead n := rfl
@[simp] theorem State.raise_pixel (s : State) (c : FaultCause) (i : Instr) (px : Fin 2048) : (s.raise c i).pixel px = s.pixel px := rfl
@[simp] theorem State.raise_isPressed (s : State) (c : FaultCause) (i : Instr) (k : Nibble) : (s.raise c i).isPressed k = s.isPressed k := rfl

/-! ### writeCell -/

@[simp] theorem State.writeCell_cfg (s : State) (a : Nat) (b : Byte) : (s.writeCell a b).cfg = s.cfg := by unfold State.writeCell; split <;> rfl
@[simp] theorem State.writeCell_inputs (s : State) (a : Nat) (b : Byte) : (s.writeCell a b).inputs = s.inputs := by unfold State.writeCell; split <;> rfl
@[simp] theorem State.writeCell_rnd (s : State) (a : Nat) (b : Byte) : (s.writeCell a b).rnd = s.rnd := by unfold State.writeCell; split <;> rfl
@[simp] theorem State.writeCell_draws (s : State) (a : Nat) (b : Byte) : (s.writeCell a b).draws = s.draws := by unfold State.writeCell; split <;> rfl
@[simp] theorem State.writeCell_V (s : State) (a : Nat) (b : Byte) : (s.writeCell a b).V = s.V := by unfold State.writeCell; split <;> rfl
@[simp] theorem State.writeCell_I (s : State) (a : Nat) (b : Byte) : (s.writeCell a b).I = s.I := by unfold State.writeCell; split <;> rfl
@[simp] theorem State.writeCell_pc (s : State) (a : Nat) (b : Byte) : (s.writeCell a b).pc = s.pc := by unfold State.writeCell; split <;> rfl
@[simp] theorem State.writeCell_stack (s : State) (a : Nat) (b : Byte) : (s.writeCell a b).stack = s.stack := by unfold State.writeCell; split <;> rfl
@[simp] theorem State.writeCell_DT (s : State) (a : Nat) (b : Byte) : (s.writeCell a b).DT = s.DT := by unfold State.writeCell; split <;> rfl
@[simp] theorem State.writeCell_ST (s : State) (a : Nat) (b : Byte) : (s.writeCell a b).ST = s.ST := by unfold State.writeCell; split <;> rfl
@[simp] theorem State.writeCell_keys (s : State) (a : Nat) (b : Byte) : (s.writeCell a b).keys = s.keys := by unfold State.writeCell; split <;> rfl
@[simp] theorem State.writeCell_released (s : State) (a : Nat) (b : Byte) : (s.writeCell a b).released = s.released := by unfold State.writeCell; split <;> rfl
@[simp] theorem State.writeCell_stop (s : State) (a : Nat) (b : Byte) : (s.writeCell a b).stop = s.stop := by unfold State.writeCell; split <;> rfl
@[simp] theorem State.writeCell_fb (s : State) (a : Nat) (b : Byte) : (s.writeCell a b).fb = s.fb := by unfold State.writeCell; split <;> rfl
@[simp] theorem State.writeCell_feed (s : State) (a : Nat) (b : Byte) : (s.writeCell a b).feed = s.feed := by unfold State.writeCell; split <;> rfl
@[simp] theorem State.writeCell_fault (s : State) (a : Nat) (b : Byte) : (s.writeCell a b).fault = s.fault := by unfold State.writeCell; split <;> rfl
@[simp] theorem State.writeCell_getV (s : State) (a : Nat) (b : Byte) (k : Nibble) : (s.writeCell a b).getV k = s.getV k := by simp [State.getV]
@[simp] theorem State.writeCell_pixel (s : State) (a : Nat) (b : Byte) (px : Fin 2048) : (s.writeCell a b).pixel px = s.pixel px := by simp [State.pixel]
@[simp] theorem State.writeCell_isPressed (s : State) (a : Nat) (b : Byte) (k : Nibble) : (s.writeCell a b).isPressed k = s.isPressed k := by simp [State.isPressed]

/-! ### applyEvent -/

@[simp] theorem State.applyEvent_cfg (s : State) (e : KeyEvent) : (s.applyEvent e).cfg = s.cfg := by cases e <;> rfl
@[simp] theorem State.applyEvent_inputs (s : State) (e : KeyEvent) : (s.applyEvent e).inputs = s.inputs := by cases e <;> rfl
@[simp] theorem State.applyEvent_rnd (s : State) (e : KeyEvent) : (s.applyEvent e).rnd = s.rnd := by cases e <;> rfl
@[simp] theorem State.applyEvent_draws (s : State) (e : KeyEvent) : (s.applyEvent e).draws = s.draws := by cases e <;> rfl
@[simp] theorem State.applyEvent_mem (s : State) (e : KeyEvent) : (s.applyEvent e).mem = s.mem := by cases e <;> rfl
@[simp] theorem State.applyEvent_V (s : State) (e : KeyEvent) : (s.applyEvent e).V = s.V := by cases e <;> rfl
@[simp] theorem State.applyEvent_I (s : State) (e : KeyEvent) : (s.applyEvent e).I = s.I := by cases e <;> rfl
@[simp] theorem State.applyEvent_pc (s : State) (e : KeyEvent) : (s.applyEvent e).pc = s.pc := by cases e <;> rfl
@[simp] theorem State.applyEvent_stack (s : State) (e : KeyEvent) : (s.applyEvent e).stack = s.stack := by cases e <;> rfl
@[simp] theorem State.applyEvent_DT (s : State) (e : KeyEvent) : (s.applyEvent e).DT = s.DT := by cases e <;> rfl
@[simp] theorem State.applyEvent_ST (s : State) (e : KeyEvent) : (s.applyEvent e).ST = s.ST := by cases e <;> rfl
@[simp] theorem State.applyEvent_fb (s : State) (e : KeyEvent) : (s.applyEvent e).fb = s.fb := by cases e <;> rfl
@[simp] theorem State.applyEvent_feed (s : State) (e : KeyEvent) : (s.applyEvent e).feed = s.feed := by cases e <;> rfl
@[simp] theorem State.applyEvent_fault (s : State) (e : KeyEvent) : (s.applyEvent e).fault = s.fault := by cases e <;> rfl
@[simp] theorem State.applyEvent_getV (s : State) (e : KeyEvent) (k : Nibble) : (s.applyEvent e).getV k = s.getV k := by simp [State.getV]
@[simp] theorem State.applyEvent_readByte (s : State) (e : KeyEvent) (n : Nat) : (s.applyEvent e).readByte n = s.readByte n := by simp [State.readByte, State.readCell]
@[simp] theorem State.applyEvent_memRead (s : State) (e : KeyEvent) (n : Nat) : (s.applyEvent e).memRead n = s.memRead n := by simp [State.memRead]
@[simp] theorem State.applyEvent_pixel (s : State) (e : KeyEvent) (px : Fin 2048) : (s.applyEvent e).pixel px = s.pixel px := by simp [State.pixel]

/-! ### pace -/

@[simp] theorem State.pace_cfg (s : State) (b : Bool) : (s.pace b).cfg = s.cfg := by cases b <;> rfl
@[simp] theorem State.pace_inputs (s : State) (b : Bool) : (s.pace b).inputs = s.inputs := by cases b <;> rfl
@[simp] theorem State.pace_rnd (s : State) (b : Bool) : (s.pace b).rnd = s.rnd := by cases b <;> rfl
@[simp] theorem State.pace_draws (s : State) (b : Bool) : (s.pace b).draws = s.draws := by cases b <;> rfl
@[simp] theorem State.pace_mem (s : State) (b : Bool) : (s.pace b).mem = s.mem := by cases b <;> rfl
@[simp] theorem State.pace_V (s : State) (b : Bool) : (s.pace b).V = s.V := by cases b <;> rfl
@[simp] theorem State.pace_I (s : State) (b : Bool) : (s.pace b).I = s.I := by cases b <;> rfl
@[simp] theorem State.pace_pc (s : State) (b : Bool) : (s.pace b).pc = s.pc := by cases b <;> rfl
@[simp] theorem State.pace_stack (s : State) (b : Bool) : (s.pace b).stack = s.stack := by cases b <;> rfl
@[simp] theorem State.pace_keys (s : State) (b : Bool) : (s.pace b).keys = s.keys := by cases b <;> rfl
@[simp] theorem State.pace_released (s : State) (b : Bool) : (s.pace b).released = s.released := by cases b <;> rfl
@[simp] theorem State.pace_stop (s : State) (b : Bool) : (s.pace b).stop = s.stop := by cases b <;> rfl
@[simp] theorem State.pace_fb (s : State) (b : Bool) : (s.pace b).fb = s.fb := by cases b <;> rfl
@[simp] theorem State.pace_feed (s : State) (b : Bool) : (s.pace b).feed = s.feed := by cases b <;> rfl
@[simp] theorem State.pace_fault (s : State) (b : Bool) : (s.pace b).fault = s.fault := by cases b <;> rfl
@[simp] theorem State.pace_getV (s : State) (b : Bool) (k : Nibble) : (s.pace b).getV k = s.getV k := by simp [State.getV]
@[simp] theorem State.pace_readByte (s : State) (b : Bool) (n : Nat) : (s.pace b).readByte n = s.readByte n := by simp [State.readByte, State.readCell]
@[simp] theorem State.pace_memRead (s : State) (b : Bool) (n : Nat) : (s.pace b).memRead n = s.memRead n := by simp [State.memRead]
@[simp] theorem State.pace_pixel (s : State) (b : Bool) (px : Fin 2048) : (s.pace b).pixel px = s.pixel px := by simp [State.pixel]
@[simp] theorem State.pace_isPressed (s : State) (b : Bool) (k : Nibble) : (s.pace b).isPressed k = s.isPressed k := by simp [State.isPressed]

/-! ### takeInput -/

@[simp] theorem State.takeInput_cfg (s : State) : s.takeInput.cfg = s.cfg := by unfold State.takeInput; split <;> rfl
@[simp] theorem State.takeInput_mem (s : State) : s.takeInput.mem = s.mem := by unfold State.takeInput; split <;> rfl
@[simp] theorem State.takeInput_V (s : State) : s.takeInput.V = s.V := by unfold State.takeInput; split <;> rfl
@[simp] theorem State.takeInput_I (s : State) : s.takeInput.I = s.I := by unfold State.takeInput; split <;> rfl
@[simp] theorem State.takeInput_pc (s : State) : s.takeInput.pc = s.pc := by unfold State.takeInput; split <;> rfl
@[simp] theorem State.takeInput_stack (s : State) : s.takeInput.stack = s.stack := by unfold State.takeInput; split <;> rfl
@[simp] theorem State.takeInput_DT (s : State) : s.takeInput.DT = s.DT := by unfold State.takeInput; split <;> rfl
@[simp] theorem State.takeInput_ST (s : State) : s.takeInput.ST = s.ST := by unfold State.takeInput; split <;> rfl
@[simp] theorem State.takeInput_keys (s : State) : s.takeInput.keys = s.keys := by unfold State.takeInput; split <;> rfl
@[simp] theorem State.takeInput_released (s : State) : s.takeInput.released = s.released := by unfold State.takeInput; split <;> rfl
@[simp] theorem State.takeInput_stop (s : State) : s.takeInput.stop = s.stop := by unfold State.takeInput; split <;> rfl
@[simp] theorem State.takeInput_fb (s : State) : s.takeInput.fb = s.fb := by unfold State.takeInput; split <;> rfl
@[simp] theorem State.takeInput_feed (s : State) : s.takeInput.feed = s.feed := by unfold State.takeInput; split <;> rfl
@[simp] theorem State.takeInput_fault (s : State) : s.takeInput.fault = s.fault := by unfold State.takeInput; split <;> rfl
@[simp] theorem State.takeInput_getV (s : State) (k : Nibble) : s.takeInput.getV k = s.getV k := by simp [State.getV]
@[simp] theorem State.takeInput_readByte (s : State) (n : Nat) : s.takeInput.readByte n = s.readByte n := by simp [State.readByte, State.readCell]
@[simp] theorem State.takeInput_memRead (s : State) (n : Nat) : s.takeInput.memRead n = s.memRead n := by simp [State.memRead]
@[simp] theorem State.takeInput_pixel (s : State) (px : Fin 2048) : s.takeInput.pixel px = s.pixel px := by simp [State.pixel]
@[simp] theorem State.takeInput_isPressed (s : State) (k : Nibble) : s.takeInput.isPressed k = s.isPressed k := by simp [State.isPressed]

/-! ### writeBytes -/

@[simp] theorem State.writeBytes_cfg (l : List (Nat × Byte)) (s : State) : (State.writeBytes l s).cfg = s.cfg := by
  induction l generalizing s <;> simp_all [State.writeBytes, State.writeByte]
@[simp] theorem State.writeBytes_inputs (l : List (Nat × Byte)) (s : State) : (State.writeBytes l s).inputs = s.inputs := by
  induction l generalizing s <;> simp_all [State.writeBytes, State.writeByte]
@[simp] theorem State.writeBytes_rnd (l : List (Nat × Byte)) (s : State) : (State.writeBytes l s).rnd = s.rnd := by
  induction l generalizing s <;> simp_all [State.writeBytes, State.writeByte]
@[simp] theorem State.writeBytes_draws (l : List (Nat × Byte)) (s : State) : (State.writeBytes l s).draws = s.draws := by
  induction l generalizing s <;> simp_all [State.writeBytes, State.writeByte]
@[simp] theorem State.writeBytes_V (l : List (Nat × Byte)) (s : State) : (State.writeBytes l s).V = s.V := by
  induction l generalizing s <;> simp_all [State.writeBytes, State.writeByte]
@[simp] theorem State.writeBytes_I (l : List (Nat × Byte)) (s : State) : (State.writeBytes l s).I = s.I := by
  induction l generalizing s <;> simp_all [State.writeBytes, State.writeByte]
@[simp] theorem State.writeBytes_pc (l : List (Nat × Byte)) (s : State) : (State.writeBytes l s).pc = s.pc := by
  induction l generalizing s <;> simp_all [State.writeBytes, State.writeByte]
@[simp] theorem State.writeBytes_stack (l : List (Nat × Byte)) (s : State) : (State.writeBytes l s).stack = s.stack := by
  induction l generalizing s <;> simp_all [State.writeBytes, State.writeByte]
@[simp] theorem State.writeBytes_DT (l : List (Nat × Byte)) (s : State) : (State.writeBytes l s).DT = s.DT := by
  induction l generalizing s <;> simp_all [State.writeBytes, State.writeByte]
@[simp] theorem State.writeBytes_ST (l : List (Nat × Byte)) (s : State) : (State.writeBytes l s).ST = s.ST := by
  induction l generalizing s <;> simp_all [State.writeBytes, State.writeByte]
@[simp] theorem State.writeBytes_keys (l : List (Nat × Byte)) (s : State) : (State.writeBytes l s).keys = s.keys := by
  induction l generalizing s <;> simp_all [State.writeBytes, State.writeByte]
@[simp] theorem State.writeBytes_released (l : List (Nat × Byte)) (s : State) : (State.writeBytes l s).released = s.released := by
  induction l generalizing s <;> simp_all [State.writeBytes, State.writeByte]
@[simp] theorem State.writeBytes_stop (l : List (Nat × Byte)) (s : State) : (State.writeBytes l s).stop = s.stop := by
  induction l generalizing s <;> simp_all [State.writeBytes, State.writeByte]
@[simp] theorem State.writeBytes_fb (l : List (Nat × Byte)) (s : State) : (State.writeBytes l s).fb = s.fb := by
  induction l generalizing s <;> simp_all [State.writeBytes, State.writeByte]
@[simp] theorem State.writeBytes_feed (l : List (Nat × Byte)) (s : State) : (State.writeBytes l s).feed = s.feed := by
  induction l generalizing s <;> simp_all [State.writeBytes, State.writeByte]
@[simp] theorem State.writeBytes_fault (l : List (Nat × Byte)) (s : State) : (State.writeBytes l s).fault = s.fault := by
  induction l generalizing s <;> simp_all [State.writeBytes, State.writeByte]
@[simp] theorem State.writeBytes_getV (l : List (Nat × Byte)) (s : State) (k : Nibble) : (State.writeBytes l s).getV k = s.getV k := by
  simp [State.getV]
@[simp] theorem State.writeBytes_pixel (l : List (Nat × Byte)) (s : State) (px : Fin 2048) : (State.writeBytes l s).pixel px = s.pixel px := by
  simp [State.pixel]
@[simp] theorem State.writeBytes_isPressed (l : List (Nat × Byte)) (s : State) (k : Nibble) : (State.writeBytes l s).isPressed k = s.isPressed k := by
  simp [State.isPressed]

/-! ### loadRegs -/

@[simp] theorem State.loadRegs_cfg (l : List Nibble) (s : State) : (State.loadRegs l s).cfg = s.cfg := by
  induction l generalizing s <;> simp_all [State.loadRegs]
@[simp] theorem State.loadRegs_inputs (l : List Nibble) (s : State) : (State.loadRegs l s).inputs = s.inputs := by
  induction l generalizing s <;> simp_all [State.loadRegs]
@[simp] theorem State.loadRegs_rnd (l : List Nibble) (s : State) : (State.loadRegs l s).rnd = s.rnd := by
  induction l generalizing s <;> simp_all [State.loadRegs]
@[simp] theorem State.loadRegs_draws (l : List Nibble) (s : State) : (State.loadRegs l s).draws = s.draws := by
  induction l generalizing s <;> simp_all [State.loadRegs]
@[simp] theorem State.loadRegs_mem (l : List Nibble) (s : State) : (State.loadRegs l s).mem = s.mem := by
  induction l generalizing s <;> simp_all [State.loadRegs]
@[simp] theorem State.loadRegs_I (l : List Nibble) (s : State) : (State.loadRegs l s).I = s.I := by
  induction l generalizing s <;> simp_all [State.loadRegs]
@[simp] theorem State.loadRegs_pc (l : List Nibble) (s : State) : (State.loadRegs l s).pc = s.pc := by
  induction l generalizing s <;> simp_all [State.loadRegs]
@[simp] theorem State.loadRegs_stack (l : List Nibble) (s : State) : (State.loadRegs l s).stack = s.stack := by
  induction l generalizing s <;> simp_all [State.loadRegs]
@[simp] theorem State.loadRegs_DT (l : List Nibble) (s : State) : (State.loadRegs l s).DT = s.DT := by
  induction l generalizing s <;> simp_all [State.loadRegs]
@[simp] theorem State.loadRegs_ST (l : List Nibble) (s : State) : (State.loadRegs l s).ST = s.ST := by
  induction l generalizing s <;> simp_all [State.loadRegs]
@[simp] theorem State.loadRegs_keys (l : List Nibble) (s : State) : (State.loadRegs l s).keys = s.keys := by
  induction l generalizing s <;> simp_all [State.loadRegs]
@[simp] theorem State.loadRegs_released (l : List Nibble) (s : State) : (State.loadRegs l s).released = s.released := by
  induction l generalizing s <;> simp_all [State.loadRegs]
@[simp] theorem State.loadRegs_stop (l : List Nibble) (s : State) : (State.loadRegs l s).stop = s.stop := by
  induction l generalizing s <;> simp_all [State.loadRegs]
@[simp] theorem State.loadRegs_fb (l : List Nibble) (s : State) : (State.loadRegs l s).fb = s.fb := by
  induction l generalizing s <;> simp_all [State.loadRegs]
@[simp] theorem State.loadRegs_feed (l : List Nibble) (s : State) : (State.loadRegs l s).feed = s.feed := by
  induction l generalizing s <;> simp_all [State.loadRegs]
@[simp] theorem State.loadRegs_fault (l : List Nibble) (s : State) : (State.loadRegs l s).fault = s.fault := by
  induction l generalizing s <;> simp_all [State.loadRegs]
@[simp] theorem State.loadRegs_readByte (l : List Nibble) (s : State) (n : Nat) : (State.loadRegs l s).readByte n = s.readByte n := by
  simp [State.readByte, State.readCell]
@[simp] theorem State.loadRegs_memRead (l : List Nibble) (s : State) (n : Nat) : (State.loadRegs l s).memRead n = s.memRead n := by
  simp [State.memRead]
@[simp] theorem State.loadRegs_pixel (l : List Nibble) (s : State) (px : Fin 2048) : (State.loadRegs l s).pixel px = s.pixel px := by
  simp [State.pixel]
@[simp] theorem State.loadRegs_isPressed (l : List Nibble) (s : State) (k : Nibble) : (State.loadRegs l s).isPressed k = s.isPressed k := by
  simp [State.isPressed]

/-! ### plot -/

@[simp] theorem State.plot_cfg (l : List (Fin 2048)) (s : State) : (State.plot l s).cfg = s.cfg := by
  induction l generalizing s <;> simp_all [State.plot]
@[simp] theorem State.plot_inputs (l : List (Fin 2048)) (s : State) : (State.plot l s).inputs = s.inputs := by
  induction l generalizing s <;> simp_all [State.plot]
@[simp] theorem State.plot_rnd (l : List (Fin 2048)) (s : State) : (State.plot l s).rnd = s.rnd := by
  induction l generalizing s <;> simp_all [State.plot]
@[simp] theorem State.plot_draws (l : List (Fin 2048)) (s : State) : (State.plot l s).draws = s.draws := by
  induction l generalizing s <;> simp_all [State.plot]
@[simp] theorem State.plot_mem (l : List (Fin 2048)) (s : State) : (State.plot l s).mem = s.mem := by
  induction l generalizing s <;> simp_all [State.plot]
@[simp] theorem State.plot_V (l : List (Fin 2048)) (s : State) : (State.plot l s).V = s.V := by
  induction l generalizing s <;> simp_all [State.plot]
@[simp] theorem State.plot_I (l : List (Fin 2048)) (s : State) : (State.plot l s).I = s.I := by
  induction l generalizing s <;> simp_all [State.plot]
@[simp] theorem State.plot_pc (l : List (Fin 2048)) (s : State) : (State.plot l s).pc = s.pc := by
  induction l generalizing s <;> simp_all [State.plot]
@[simp] theorem State.plot_stack (l : List (Fin 2048)) (s : State) : (State.plot l s).stack = s.stack := by
  induction l generalizing s <;> simp_all [State.plot]
@[simp] theorem State.plot_DT (l : List (Fin 2048)) (s : State) : (State.plot l s).DT = s.DT := by
  induction l generalizing s <;> simp_all [State.plot]
@[simp] theorem State.plot_ST (l : List (Fin 2048)) (s : State) : (State.plot l s).ST = s.ST := by
  induction l generalizing s <;> simp_all [State.plot]
@[simp] theorem State.plot_keys (l : List (Fin 2048)) (s : State) : (State.plot l s).keys = s.keys := by
  induction l generalizing s <;> simp_all [State.plot]
@[simp] theorem State.plot_released (l : List (Fin 2048)) (s : State) : (State.plot l s).released = s.released := by
  induction l generalizing s <;> simp_all [State.plot]
@[simp] theorem State.plot_stop (l : List (Fin 2048)) (s : State) : (State.plot l s).stop = s.stop := by
  induction l generalizing s <;> simp_all [State.plot]
@[simp] theorem State.plot_fault (l : List (Fin 2048)) (s : State) : (State.plot l s).fault = s.fault := by
  induction l generalizing s <;> simp_all [State.plot]
@[simp] theorem State.plot_getV (l : List (Fin 2048)) (s : State) (k : Nibble) : (State.plot l s).getV k = s.getV k := by
  simp [State.getV]
@[simp] theorem State.plot_readByte (l : List (Fin 2048)) (s : State) (n : Nat) : (State.plot l s).readByte n = s.readByte n := by
  simp [State.readByte, State.readCell]
@[simp] theorem State.plot_memRead (l : List (Fin 2048)) (s : State) (n : Nat) : (State.plot l s).memRead n = s.memRead n := by
  simp [State.memRead]
@[simp] theorem State.plot_isPressed (l : List (Fin 2048)) (s : State) (k : Nibble) : (State.plot l s).isPressed k = s.isPressed k := by
  simp [State.isPressed]

/-! ### drain -/

@[simp] theorem State.drain_cfg (l : List KeyEvent) (s : State) : (State.drain l s).cfg = s.cfg := by
  induction l generalizing s <;> simp_all [State.drain]
@[simp] theorem State.drain_inputs (l : List KeyEvent) (s : State) : (State.drain l s).inputs = s.inputs := by
  induction l generalizing s <;> simp_all [State.drain]
@[simp] theorem State.drain_rnd (l : List KeyEvent) (s : State) : (State.drain l s).rnd = s.rnd := by
  induction l generalizing s <;> simp_all [State.drain]
@[simp] theorem State.drain_draws (l : List KeyEvent) (s : State) : (State.drain l s).draws = s.draws := by
  induction l generalizing s <;> simp_all [State.drain]
@[simp] theorem State.drain_mem (l : List KeyEvent) (s : State) : (State.drain l s).mem = s.mem := by
  induction l generalizing s <;> simp_all [State.drain]
@[simp] theorem State.drain_V (l : List KeyEvent) (s : State) : (State.drain l s).V = s.V := by
  induction l generalizing s <;> simp_all [State.drain]
@[simp] theorem State.drain_I (l : List KeyEvent) (s : State) : (State.drain l s).I = s.I := by
  induction l generalizing s <;> simp_all [State.drain]
@[simp] theorem State.drain_pc (l : List KeyEvent) (s : State) : (State.drain l s).pc = s.pc := by
  induction l generalizing s <;> simp_all [State.drain]
@[simp] theorem State.drain_stack (l : List KeyEvent) (s : State) : (State.drain l s).stack = s.stack := by
  induction l generalizing s <;> simp_all [State.drain]
@[simp] theorem State.drain_DT (l : List KeyEvent) (s : State) : (State.drain l s).DT = s.DT := by
  induction l generalizing s <;> simp_all [State.drain]
@[simp] theorem State.drain_ST (l : List KeyEvent) (s : State) : (State.drain l s).ST = s.ST := by
  induction l generalizing s <;> simp_all [State.drain]
@[simp] theorem State.drain_fb (l : List KeyEvent) (s : State) : (State.drain l s).fb = s.fb := by
  induction l generalizing s <;> simp_all [State.drain]
@[simp] theorem State.drain_feed (l : List KeyEvent) (s : State) : (State.drain l s).feed = s.feed := by
  induction l generalizing s <;> simp_all [State.drain]
@[simp] theorem State.drain_fault (l : List KeyEvent) (s : State) : (State.drain l s).fault = s.fault := by
  induction l generalizing s <;> simp_all [State.drain]
@[simp] theorem State.drain_getV (l : List KeyEvent) (s : State) (k : Nibble) : (State.drain l s).getV k = s.getV k := by
  simp [State.getV]
@[simp] theorem State.drain_readByte (l : List KeyEvent) (s : State) (n : Nat) : (State.drain l s).readByte n = s.readByte n := by
  simp [State.readByte, State.readCell]
@[simp] theorem State.drain_memRead (l : List KeyEvent) (s : State) (n : Nat) : (State.drain l s).memRead n = s.memRead n := by
  simp [State.memRead]
@[simp] theorem State.drain_pixel (l : List KeyEvent) (s : State) (px : Fin 2048) : (State.drain l s).pixel px = s.pixel px := by
  simp [State.pixel]

end Sys2Proof.Machine
end

