-- ==== Sys2Proof/Laws/Memory.lean ====
section
/-! SUPPORT. The laws of memory: a read after a write, every other cell unchanged, and the canonical form kept by
every memory operation. -/

namespace Sys2Proof.Machine

/-! ### Lists of cells -/

theorem lookupCell_eraseCell_same (a : Nat) (m : List Host.Cell) : lookupCell a (eraseCell a m) = none := by
  induction m with
  | nil => rfl
  | cons p rest ih =>
    obtain ⟨k, b⟩ := p
    by_cases h : k = a
    · simpa [eraseCell, h] using ih
    · simpa [eraseCell, h, lookupCell] using ih

theorem lookupCell_eraseCell_ne {a n : Nat} (h : n ≠ a) (m : List Host.Cell) :
    lookupCell n (eraseCell a m) = lookupCell n m := by
  induction m with
  | nil => rfl
  | cons p rest ih =>
    obtain ⟨k, b⟩ := p
    by_cases hk : k = a
    · subst hk; simpa [eraseCell, lookupCell, Ne.symm h] using ih
    · by_cases hn : k = n
      · subst hn; simp [eraseCell, lookupCell, h]
      · simpa [eraseCell, hk, lookupCell, hn] using ih

theorem lookupCell_insertCell_same (a : Nat) (b : Byte) (m : List Host.Cell) :
    lookupCell a (insertCell a b m) = some b := by
  induction m with
  | nil => simp [insertCell, lookupCell]
  | cons p rest ih =>
    obtain ⟨k, c⟩ := p
    simp only [insertCell]
    split
    · simp [lookupCell]
    · split
      · simp [lookupCell]
      · simp [lookupCell, ih]; omega

theorem lookupCell_insertCell_ne {a n : Nat} (h : n ≠ a) (b : Byte) (m : List Host.Cell) :
    lookupCell n (insertCell a b m) = lookupCell n m := by
  induction m with
  | nil => simp [insertCell, lookupCell, Ne.symm h]
  | cons p rest ih =>
    obtain ⟨k, c⟩ := p
    simp only [insertCell]
    split
    · simp [lookupCell, Ne.symm h]
    · split
      · next hk => subst hk; simp [lookupCell, Ne.symm h]
      · simp [lookupCell, ih]

/-! ### Cells and bytes -/

theorem State.readCell_writeCell_same (s : State) (a : Nat) (b : Byte) : (s.writeCell a b).readCell a = b := by
  unfold State.writeCell State.readCell
  split
  · next h => simp [lookupCell_eraseCell_same, h]
  · simp [lookupCell_insertCell_same]

theorem State.readCell_writeCell_ne (s : State) {a n : Nat} (h : n ≠ a) (b : Byte) :
    (s.writeCell a b).readCell n = s.readCell n := by
  unfold State.writeCell State.readCell
  split
  · simp [lookupCell_eraseCell_ne h]
  · simp [lookupCell_insertCell_ne h]

/-- A read after a write of one byte, in every case. -/
theorem State.readByte_writeCell (s : State) (a n : Nat) (b : Byte) :
    (s.writeCell a b).readByte n = if cellOf n = a then b else s.readByte n := by
  unfold State.readByte
  split
  · next h => rw [h, State.readCell_writeCell_same]
  · next h => exact State.readCell_writeCell_ne s h b

theorem cellOf_lt (a : Nat) : cellOf a < 4096 := Nat.mod_lt _ (by decide)

theorem cellOf_of_lt {a : Nat} (h : a < 4096) : cellOf a = a := Nat.mod_eq_of_lt h

/-- A read through an address no byte of the list is stored at. -/
theorem State.readByte_writeBytes_ne (l : List (Nat × Byte)) (s : State) {n : Nat}
    (h : ∀ p ∈ l, cellOf p.1 ≠ cellOf n) : (State.writeBytes l s).readByte n = s.readByte n := by
  induction l generalizing s with
  | nil => rfl
  | cons p rest ih =>
    obtain ⟨a, b⟩ := p
    have ha : cellOf a ≠ cellOf n := h (a, b) (by simp)
    rw [State.writeBytes, ih _ fun q hq => h q (by simp [hq]), State.writeByte_eq, State.readByte_writeCell,
      if_neg (Ne.symm ha)]

/-- A read of a byte the list stores, when no two entries of the list name one cell. -/
theorem State.readByte_writeBytes_mem (l : List (Nat × Byte)) (s : State) {a : Nat} {b : Byte}
    (hd : l.Pairwise fun p q => cellOf p.1 ≠ cellOf q.1) (h : (a, b) ∈ l) :
    (State.writeBytes l s).readByte a = b := by
  induction l generalizing s with
  | nil => simp at h
  | cons p rest ih =>
    rw [List.pairwise_cons] at hd
    rcases List.mem_cons.1 h with rfl | h
    · rw [State.writeBytes, State.readByte_writeBytes_ne _ _ fun q hq => Ne.symm (hd.1 q hq), State.writeByte_eq,
        State.readByte_writeCell, if_pos rfl]
    · exact ih _ hd.2 h

/-! ### The canonical form -/

theorem risingCells_iff (m : List Host.Cell) : risingCells m = true ↔ m.Pairwise fun p q => p.1 < q.1 := by
  induction m with
  | nil => simp [risingCells]
  | cons p rest ih =>
    obtain ⟨a, b⟩ := p
    cases rest with
    | nil => simp [risingCells]
    | cons q rest =>
      obtain ⟨k, c⟩ := q
      rw [risingCells, Bool.and_eq_true, ih, decide_eq_true_iff, List.pairwise_cons (a := (a, b))]
      refine ⟨?_, ?_⟩
      · rintro ⟨h, h'⟩
        refine ⟨fun r hr => ?_, h'⟩
        rcases List.mem_cons.1 hr with rfl | hr
        · exact h
        · exact Nat.lt_trans h ((List.pairwise_cons.1 h').1 r hr)
      · rintro ⟨h, h'⟩
        refine ⟨h (k, c) (by simp), h'⟩

/-- The canonical form, as propositions. -/
theorem Memory.wf_iff (c : Config) (m : List Host.Cell) :
    Memory.wf c m = true ↔ (m.Pairwise fun p q => p.1 < q.1) ∧ ∀ p ∈ m, p.1 < 4096 ∧ p.2 ≠ background c p.1 := by
  simp [Memory.wf, risingCells_iff]

theorem mem_insertCell {a : Nat} {b : Byte} {m : List Host.Cell} {p : Host.Cell} (h : p ∈ insertCell a b m) :
    p = (a, b) ∨ p ∈ m := by
  induction m with
  | nil => simpa [insertCell] using h
  | cons q rest ih =>
    obtain ⟨k, c⟩ := q
    simp only [insertCell] at h
    split at h
    · simpa using h
    · split at h
      · rcases List.mem_cons.1 h with h | h
        · exact .inl h
        · exact .inr (by simp [h])
      · rcases List.mem_cons.1 h with h | h
        · exact .inr (by simp [h])
        · rcases ih h with h | h
          · exact .inl h
          · exact .inr (by simp [h])

theorem pairwise_insertCell (a : Nat) (b : Byte) {m : List Host.Cell} (h : m.Pairwise fun p q => p.1 < q.1) :
    (insertCell a b m).Pairwise fun p q => p.1 < q.1 := by
  induction m with
  | nil => simp [insertCell]
  | cons q rest ih =>
    obtain ⟨k, c⟩ := q
    have hk := (List.pairwise_cons.1 h).1
    have hr := (List.pairwise_cons.1 h).2
    simp only [insertCell]
    split
    · next hlt =>
      refine List.pairwise_cons.2 ⟨fun p hp => ?_, h⟩
      rcases List.mem_cons.1 hp with rfl | hp
      · exact hlt
      · exact Nat.lt_trans hlt (hk p hp)
    · split
      · next heq => subst heq; exact List.pairwise_cons.2 ⟨hk, hr⟩
      · refine List.pairwise_cons.2 ⟨fun p hp => ?_, ih hr⟩
        rcases mem_insertCell hp with rfl | hp
        · simp; omega
        · exact hk p hp

/-- A write of one cell keeps the canonical form. -/
theorem Memory.wf_writeCell {s : State} {a : Nat} (ha : a < 4096) (b : Byte) (h : Memory.wf s.cfg s.mem = true) :
    Memory.wf (s.writeCell a b).cfg (s.writeCell a b).mem = true := by
  rw [State.writeCell_cfg]
  rw [Memory.wf_iff] at h ⊢
  unfold State.writeCell
  split
  · exact ⟨h.1.filter _, fun p hp => h.2 p (List.mem_filter.1 hp).1⟩
  · next hb =>
    refine ⟨pairwise_insertCell a b h.1, fun p hp => ?_⟩
    rcases mem_insertCell hp with rfl | hp
    · exact ⟨ha, hb⟩
    · exact h.2 p hp

/-- A sequence of byte writes keeps the canonical form. -/
theorem Memory.wf_writeBytes (l : List (Nat × Byte)) {s : State} (h : Memory.wf s.cfg s.mem = true) :
    Memory.wf (State.writeBytes l s).cfg (State.writeBytes l s).mem = true := by
  induction l generalizing s with
  | nil => exact h
  | cons p rest ih => exact ih (Memory.wf_writeCell (cellOf_lt _) _ h)

/-! ### The range check -/

/-- What the check of a list of addresses says. -/
theorem firstOutOfRange_eq_none {c : Config} {l : List Nat} :
    firstOutOfRange c l = none ↔ ∀ a ∈ l, accessible c a = true := by
  simp [firstOutOfRange]

/-- `MemRead(a, 1)`, in both cases. -/
theorem State.memRead_ok {s : State} {a : Nat} {b : Byte} :
    s.memRead a = .ok b ↔ accessible s.cfg a = true ∧ s.readByte a = b := by
  unfold State.memRead; split <;> simp_all

theorem State.memRead_error {s : State} {a : Nat} {c : FaultCause} :
    s.memRead a = .error c ↔ accessible s.cfg a = false ∧ c = .memoryOutOfRange a := by
  unfold State.memRead; split <;> simp_all
  exact eq_comm

end Sys2Proof.Machine
end

