-- ==== Sys2Proof/Laws/Ops.lean ====
section
/-! SUPPORT. One lemma per shared operation, saying what it does, for the proofs to cite instead of unfolding it. -/

namespace Sys2Proof.Machine

/-! ### Registers -/

theorem State.getV_setV (s : State) (r k : Nibble) (b : Byte) :
    (s.setV r b).getV k = if k = r then b else s.getV k := by
  unfold State.getV State.setV
  simp only [Vector.getElem_set]
  by_cases h : k = r
  · subst h; simp
  · have : r.val ≠ k.val := fun e => h (Fin.ext e.symm)
    simp [h, this]

@[simp] theorem State.getV_setV_same (s : State) (r : Nibble) (b : Byte) : (s.setV r b).getV r = b := by
  simp [State.getV_setV]

theorem State.getV_setV_ne (s : State) {r k : Nibble} (h : k ≠ r) (b : Byte) : (s.setV r b).getV k = s.getV k := by
  simp [State.getV_setV, h]

/-- A write of a register changes the field `V` only. -/
theorem State.setV_eq (s : State) (r : Nibble) (b : Byte) : s.setV r b = { s with V := (s.setV r b).V } := rfl

/-- The result and then the flag: what each register holds (R88–R92). -/
theorem State.getV_setResultAndFlag (s : State) (x k : Nibble) (r f : Byte) :
    (s.setResultAndFlag x r f).getV k = if k = vf then f else if k = x then r else s.getV k := by
  simp [State.setResultAndFlag, State.getV_setV]

/-- FX1E's write of VF, in every case (R96). -/
theorem State.flagIndex_cases (s : State) :
    (s.cfg.flagIndexOverflow = true ∧ indexOverflow s.I = true ∧ s.flagIndex = s.setV vf 1) ∨
    (s.cfg.flagIndexOverflow = true ∧ indexOverflow s.I = false ∧ s.cfg.fx1eClearsVf = true ∧ s.flagIndex = s.setV vf 0) ∨
    (s.cfg.flagIndexOverflow = true ∧ indexOverflow s.I = false ∧ s.cfg.fx1eClearsVf = false ∧ s.flagIndex = s) ∨
    (s.cfg.flagIndexOverflow = false ∧ s.flagIndex = s) := by
  unfold State.flagIndex
  cases s.cfg.flagIndexOverflow <;> cases indexOverflow s.I <;> cases s.cfg.fx1eClearsVf <;> simp

/-- A block load writes the registers of its list from memory and no other (R100). -/
theorem State.getV_loadRegs (l : List Nibble) (s : State) (k : Nibble) :
    (State.loadRegs l s).getV k = if k ∈ l then s.readByte (s.I.toNat + k.val) else s.getV k := by
  induction l generalizing s with
  | nil => simp [State.loadRegs]
  | cons r rest ih =>
    rw [State.loadRegs, ih, State.setV_I, State.setV_readByte]
    by_cases hk : k ∈ rest
    · simp [hk]
    · by_cases hr : k = r
      · subst hr; simp [hk]
      · simp [hk, hr, State.getV_setV_ne]

theorem mem_regsUpTo {x k : Nibble} : k ∈ regsUpTo x ↔ k ≤ x := by
  simp only [regsUpTo, List.mem_map, List.mem_range]
  constructor
  · rintro ⟨n, hn, rfl⟩
    rw [Fin.le_def]; simp only [Fin.val_ofNat]; omega
  · intro h
    exact ⟨k.val, by rw [Fin.le_def] at h; omega, by ext; simp⟩

theorem mem_blockAddrs {base : Word} {n a : Nat} : a ∈ blockAddrs base n ↔ ∃ k, k < n ∧ a = base.toNat + k := by
  simp [blockAddrs, eq_comm]

/-! ### The range check and the skip -/

/-- Every address accessible: the effect. -/
theorem withRange_ok {addrs : List Nat} {i : Instr} {effect s : State}
    (h : ∀ a ∈ addrs, accessible s.cfg a = true) : withRange addrs i effect s = .next effect := by
  simp [withRange, firstOutOfRange_eq_none.2 h]

/-- What a range-checked instruction can answer: its effect, or the fault of the first bad address. -/
theorem withRange_cases (addrs : List Nat) (i : Instr) (effect s : State) :
    ((∀ a ∈ addrs, accessible s.cfg a = true) ∧ withRange addrs i effect s = .next effect) ∨
    (∃ a, firstOutOfRange s.cfg addrs = some a ∧
      withRange addrs i effect s = .next (s.raise (.memoryOutOfRange a) i)) := by
  cases h : firstOutOfRange s.cfg addrs with
  | none => exact .inl ⟨firstOutOfRange_eq_none.1 h, by simp [withRange, h]⟩
  | some a => exact .inr ⟨a, rfl, by simp [withRange, h]⟩

/-- The first bad address of a block is its lowest (R113). -/
theorem firstOutOfRange_block {c : Config} {base : Word} {n k : Nat} (hk : k < n)
    (hbad : accessible c (base.toNat + k) = false) (hlow : ∀ j, j < k → accessible c (base.toNat + j) = true) :
    firstOutOfRange c (blockAddrs base n) = some (base.toNat + k) := by
  simp only [firstOutOfRange, blockAddrs, List.find?_map, Option.map_eq_some_iff, List.find?_range_eq_some,
    Function.comp_apply, List.mem_range, Bool.not_eq_true', Bool.not_eq_false']
  exact ⟨k, ⟨hbad, hk, fun j hj => by simp [hlow j hj]⟩, rfl⟩

/-- A bad address of a block is past memory, under `mem_oob = fault`, and the block's lowest such address (R113). -/
theorem firstOutOfRange_block_some {c : Config} {base : Word} {n a : Nat}
    (h : firstOutOfRange c (blockAddrs base n) = some a) :
    c.memOob = .fault ∧ a = max base.toNat 4096 ∧ a < base.toNat + n := by
  have bad : accessible c a = false := by simpa using List.find?_some h
  have mode : c.memOob = .fault := by
    cases hm : c.memOob with
    | fault => rfl
    | wrap => simp [accessible, hm] at bad
  have past : 4096 ≤ a := by simpa [accessible, mode] using bad
  simp only [firstOutOfRange, blockAddrs, List.find?_map, Option.map_eq_some_iff, List.find?_range_eq_some,
    Function.comp_apply, List.mem_range] at h
  obtain ⟨k, ⟨-, hk, low⟩, rfl⟩ := h
  refine ⟨mode, ?_, by omega⟩
  by_contra hne
  have := low (k - 1) (by omega)
  simp [accessible, mode] at this
  omega

/-- A skip moves `pc` and nothing else (R72). -/
theorem skipIf_eq (c : Bool) (s : State) : skipIf c s = .next (s.setPc (if c then s.pc + 2 else s.pc)) := by
  cases c <;> rfl

/-! ### Stack -/

/-- `Pop` on the empty stack and on a stack with a top (R18). -/
theorem State.pop_cases (s : State) :
    (s.stack = [] ∧ s.pop = none) ∨
    (∃ l a, s.stack = l ++ [a] ∧ s.pop = some (a, { s with stack := l })) := by
  rcases List.eq_nil_or_concat s.stack with h | ⟨l, a, h⟩
  · exact .inl ⟨h, by simp [State.pop, h]⟩
  · exact .inr ⟨l, a, by simpa using h, by simp [State.pop, h]⟩

theorem nibbleOfByte_some {b : Byte} {k : Nibble} : nibbleOfByte b = some k ↔ b.toNat = k.val := by
  unfold nibbleOfByte
  split
  · simp [Fin.ext_iff]
  · simp; omega

theorem nibbleOfByte_none {b : Byte} : nibbleOfByte b = none ↔ 16 ≤ b.toNat := by
  unfold nibbleOfByte; split <;> simp <;> omega

/-! ### Keypad -/

theorem State.isPressed_applyEvent (s : State) (e : KeyEvent) (k : Nibble) :
    (s.applyEvent e).isPressed k =
      if e = .keyDown k then true else if e = .keyUp k then false else s.isPressed k := by
  unfold State.isPressed State.applyEvent
  cases e with
  | keyDown r =>
    simp only [Vector.getElem_set]
    by_cases h : r = k
    · subst h; simp
    · have : r.val ≠ k.val := fun e => h (Fin.ext e)
      simp [h, this]
  | keyUp r =>
    simp only [Vector.getElem_set]
    by_cases h : r = k
    · subst h; simp
    · have : r.val ≠ k.val := fun e => h (Fin.ext e)
      simp [h, this]
  | stop => simp

theorem State.drain_append (l₁ l₂ : List KeyEvent) (s : State) :
    State.drain (l₁ ++ l₂) s = State.drain l₂ (State.drain l₁ s) := by
  induction l₁ generalizing s with
  | nil => rfl
  | cons e rest ih => exact ih _

/-! ### Display -/

theorem Grid.get_put (g : Grid) (i j : Fin 2048) (b : Bool) :
    Grid.get (Grid.put g j b) i = if i = j then b else Grid.get g i := by
  unfold Grid.get Grid.put
  by_cases hr : j.val / 64 = i.val / 64
  · simp only [Vector.getElem_set, hr, if_pos]
    by_cases hij : i = j
    · subst hij
      have : i.val % 64 < 64 := Nat.mod_lt _ (by decide)
      cases b <;> simp [this]
    · have hc : j.val % 64 ≠ i.val % 64 := fun h => hij (Fin.ext (by omega))
      have : i.val % 64 < 64 := Nat.mod_lt _ (by decide)
      have hc' : i.val % 64 ≠ j.val % 64 := Ne.symm hc
      cases b <;> simp [hij, hc', this]
  · have hij : i ≠ j := fun h => hr (by rw [h])
    simp [hr, hij]

theorem Grid.get_clear (j : Fin 2048) : Grid.get Grid.clear j = false := by
  simp [Grid.get, Grid.clear]

/-- Two grids with the same cells are the same grid. -/
theorem Grid.ext_get {g h : Grid} (e : ∀ j, Grid.get g j = Grid.get h j) : g = h := by
  apply Vector.ext
  intro r hr
  apply BitVec.eq_of_getLsbD_eq
  intro c hc
  have := e ⟨c + 64 * r, by omega⟩
  simp only [Grid.get] at this
  have h1 : (c + 64 * r) / 64 = r := by omega
  have h2 : (c + 64 * r) % 64 = c := by omega
  simpa [h1, h2] using this

theorem State.pixel_toggle (s : State) (i j : Fin 2048) :
    (s.toggle j).pixel i = if i = j then !s.pixel j else s.pixel i := Grid.get_put _ _ _ _

@[simp] theorem State.pixel_clearScreen (s : State) (j : Fin 2048) : s.clearScreen.pixel j = false := Grid.get_clear j

/-- Plotting distinct cells: each is flipped, every other cell stays, in any state (R102). -/
theorem State.pixel_plot {l : List (Fin 2048)} (hl : l.Nodup) (s : State) (i : Fin 2048) :
    (State.plot l s).pixel i = if i ∈ l then !s.pixel i else s.pixel i := by
  induction l generalizing s with
  | nil => simp [State.plot]
  | cons j rest ih =>
    rw [List.nodup_cons] at hl
    rw [State.plot, ih hl.2, State.pixel_toggle]
    by_cases hi : i = j
    · subst hi; simp [hl.1]
    · simp [hi]

/-- Plotting distinct cells collides exactly when one of them was set before the draw (R102). -/
theorem State.collides_iff {l : List (Fin 2048)} (hl : l.Nodup) (s : State) :
    State.collides l s = true ↔ ∃ j ∈ l, s.pixel j = true := by
  induction l generalizing s with
  | nil => simp [State.collides]
  | cons j rest ih =>
    rw [List.nodup_cons] at hl
    have same : ∀ i ∈ rest, (s.toggle j).pixel i = s.pixel i := fun i hi => by
      rw [State.pixel_toggle, if_neg fun (h : i = j) => hl.1 (h ▸ hi)]
    rw [State.collides, Bool.or_eq_true, ih hl.2]
    simp only [List.mem_cons, exists_eq_or_imp]
    exact or_congr_right ⟨fun ⟨i, hi, h⟩ => ⟨i, hi, same i hi ▸ h⟩, fun ⟨i, hi, h⟩ => ⟨i, hi, (same i hi).symm ▸ h⟩⟩

/-- Plotting distinct cells emits one `Set` of each, in order, with its new value (R26, R102). -/
theorem State.feed_plot {l : List (Fin 2048)} (hl : l.Nodup) (s : State) :
    (State.plot l s).feed = s.feed ++ l.map fun j => .set j (!s.pixel j) := by
  induction l generalizing s with
  | nil => simp [State.plot]
  | cons j rest ih =>
    rw [List.nodup_cons] at hl
    rw [State.plot, ih hl.2, State.toggle_feed, List.append_assoc]
    congr 1
    simp only [List.singleton_append, List.map_cons, List.cons.injEq, true_and]
    exact List.map_congr_left fun i hi => by rw [State.pixel_toggle, if_neg fun (h : i = j) => hl.1 (h ▸ hi)]

theorem replay_append_set (feed : List DisplayEvent) (j : Fin 2048) (b : Bool) :
    replay (feed ++ [.set j b]) = Grid.put (replay feed) j b := by simp [replay, replayEvent]

theorem replay_append_clear (feed : List DisplayEvent) : replay (feed ++ [.clear]) = Grid.clear := by
  simp [replay, replayEvent]

/-- Every plot keeps the replay law (R28). -/
theorem State.replay_plot (l : List (Fin 2048)) {s : State} (h : replay s.feed = s.fb) :
    replay (State.plot l s).feed = (State.plot l s).fb := by
  induction l generalizing s with
  | nil => exact h
  | cons j rest ih => exact ih (by simp [replay_append_set, h])

/-! ### Sprite geometry -/

theorem cellIndex_val {x y : Nat} (hx : x < 64) (hy : y < 32) : (cellIndex x y).val = x + 64 * y := by
  simp [cellIndex]; omega

theorem mem_rowCells {x0 y : Nat} {b : Byte} {j : Fin 2048} :
    j ∈ rowCells x0 y b ↔ ∃ c, c < 8 ∧ x0 + c < 64 ∧ b.getLsbD (7 - c) = true ∧ j = cellIndex (x0 + c) y := by
  simp only [rowCells, List.mem_filterMap, List.mem_range]
  constructor
  · rintro ⟨c, hc, h⟩
    split at h
    · next hp => exact ⟨c, hc, hp.1, hp.2, by simpa [eq_comm] using h⟩
    · simp at h
  · rintro ⟨c, hc, h1, h2, rfl⟩
    exact ⟨c, hc, by simp [h1, h2]⟩

theorem mem_spriteCells {x0 y : Nat} {l : List Byte} {j : Fin 2048} :
    j ∈ spriteCells x0 y l ↔ ∃ r b, l[r]? = some b ∧ j ∈ rowCells x0 (y + r) b := by
  induction l generalizing y with
  | nil => simp [spriteCells]
  | cons b rest ih =>
    rw [spriteCells, List.mem_append, ih]
    constructor
    · rintro (h | ⟨r, b', h, h'⟩)
      · exact ⟨0, b, by simp, h⟩
      · exact ⟨r + 1, b', by simpa using h, by rwa [show y + (r + 1) = y + 1 + r by omega]⟩
    · rintro ⟨r, b', h, h'⟩
      cases r with
      | zero => simp at h; subst h; exact .inl h'
      | succ r => exact .inr ⟨r, b', by simpa using h, by rwa [show y + 1 + r = y + (r + 1) by omega]⟩

theorem nodup_rowCells (x0 y : Nat) (b : Byte) (hy : y < 32) : (rowCells x0 y b).Nodup := by
  unfold rowCells
  refine List.Nodup.filterMap ?_ List.nodup_range
  intro a a' j h h'
  simp only [Option.mem_def] at h h'
  split at h
  · split at h'
    · next p p' =>
      have e : cellIndex (x0 + a) y = cellIndex (x0 + a') y := by
        rw [Option.some.inj h, Option.some.inj h']
      have := congrArg Fin.val e
      rw [cellIndex_val p.1 hy, cellIndex_val p'.1 hy] at this
      omega
    · simp at h'
  · simp at h

/-- No cell is toggled twice by one sprite (R102). -/
theorem nodup_spriteCells (x0 y : Nat) (l : List Byte) (h : y + l.length ≤ 32) : (spriteCells x0 y l).Nodup := by
  induction l generalizing y with
  | nil => simp [spriteCells]
  | cons b rest ih =>
    simp only [List.length_cons] at h
    rw [spriteCells]
    refine List.nodup_append.2 ⟨nodup_rowCells _ _ _ (by omega), ih _ (by omega), ?_⟩
    rintro j hj j' hj' rfl
    obtain ⟨c, -, hc, -, rfl⟩ := mem_rowCells.1 hj
    obtain ⟨r, b', hr, hm⟩ := mem_spriteCells.1 hj'
    obtain ⟨c', -, hc', -, e⟩ := mem_rowCells.1 hm
    have hlen : r < rest.length := by
      rcases Nat.lt_or_ge r rest.length with h | h
      · exact h
      · simp [List.getElem?_eq_none h] at hr
    have := congrArg Fin.val e
    rw [cellIndex_val hc (by omega), cellIndex_val hc' (by omega)] at this
    omega

/-- The cells of one DXYN are distinct. -/
theorem nodup_drawCells (x y n : Nibble) (s : State) : (drawCells x y n s).Nodup := by
  refine nodup_spriteCells _ _ _ ?_
  have : startRow (s.getV y) < 32 := Nat.mod_lt _ (by decide)
  simp [spriteAddrs, blockAddrs, drawnRows]; omega

/-- The cells of one DXYN: the set bits of the drawn rows, clipped at the right edge (R102). -/
theorem mem_drawCells {x y n : Nibble} {s : State} {j : Fin 2048} :
    j ∈ drawCells x y n s ↔ ∃ r c, r < drawnRows n (startRow (s.getV y)) ∧ c < 8 ∧ startColumn (s.getV x) + c < 64 ∧
      (s.readByte (s.I.toNat + r)).getLsbD (7 - c) = true ∧
      j = cellIndex (startColumn (s.getV x) + c) (startRow (s.getV y) + r) := by
  simp only [drawCells, mem_spriteCells, mem_rowCells, spriteAddrs, blockAddrs]
  constructor
  · rintro ⟨r, b, hb, c, hc, h⟩
    simp only [List.map_map, List.getElem?_map, Option.map_eq_some_iff] at hb
    obtain ⟨k, hk, rfl⟩ := hb
    have hr : r < drawnRows n (startRow (s.getV y)) := by
      by_contra hge
      simp [Nat.not_lt.1 hge] at hk
    simp [List.getElem?_range hr] at hk
    subst hk
    exact ⟨r, c, hr, hc, h⟩
  · rintro ⟨r, c, hr, hc, h⟩
    exact ⟨r, s.readByte (s.I.toNat + r), by simp [List.getElem?_range hr], c, hc, h⟩

/-! ### The top of a cycle -/

/-- What comes before the fetch changes the environment's fields, the timers and the keypad, and nothing else. -/
theorem State.beginCycle_eq (s : State) :
    s.beginCycle = { s with
      inputs := s.beginCycle.inputs, rnd := s.beginCycle.rnd, draws := s.beginCycle.draws,
      DT := s.beginCycle.DT, ST := s.beginCycle.ST, keys := s.beginCycle.keys,
      released := s.beginCycle.released, stop := s.beginCycle.stop } := by
  unfold State.beginCycle
  rw [State.mk.injEq]
  simp

@[simp] theorem State.beginCycle_cfg (s : State) : s.beginCycle.cfg = s.cfg := by simp [State.beginCycle]
@[simp] theorem State.beginCycle_mem (s : State) : s.beginCycle.mem = s.mem := by simp [State.beginCycle]
@[simp] theorem State.beginCycle_V (s : State) : s.beginCycle.V = s.V := by simp [State.beginCycle]
@[simp] theorem State.beginCycle_I (s : State) : s.beginCycle.I = s.I := by simp [State.beginCycle]
@[simp] theorem State.beginCycle_pc (s : State) : s.beginCycle.pc = s.pc := by simp [State.beginCycle]
@[simp] theorem State.beginCycle_stack (s : State) : s.beginCycle.stack = s.stack := by simp [State.beginCycle]
@[simp] theorem State.beginCycle_fb (s : State) : s.beginCycle.fb = s.fb := by simp [State.beginCycle]
@[simp] theorem State.beginCycle_feed (s : State) : s.beginCycle.feed = s.feed := by simp [State.beginCycle]
@[simp] theorem State.beginCycle_fault (s : State) : s.beginCycle.fault = s.fault := by simp [State.beginCycle]

/-- The fetch reads memory as it was before the cycle: pacing and drain do not touch it. -/
@[simp] theorem State.beginCycle_fetchWord (s : State) : s.beginCycle.fetchWord = s.fetchWord := by
  simp [State.fetchWord, State.memReadWord, State.memRead, State.readByte, State.readCell]

/-- The two answers of a word read (R39). -/
theorem State.memReadWord_ok {s : State} {a : Nat} {w : Word} :
    s.memReadWord a = .ok w ↔ accessible s.cfg a = true ∧ accessible s.cfg (a + 1) = true ∧
      w = wordOfBytes (s.readByte a) (s.readByte (a + 1)) := by
  unfold State.memReadWord State.memRead
  cases accessible s.cfg a <;> cases accessible s.cfg (a + 1) <;> simp
  exact eq_comm

theorem State.memReadWord_error {s : State} {a : Nat} {c : FaultCause} :
    s.memReadWord a = .error c ↔
      (accessible s.cfg a = false ∧ c = .memoryOutOfRange a) ∨
      (accessible s.cfg a = true ∧ accessible s.cfg (a + 1) = false ∧ c = .memoryOutOfRange (a + 1)) := by
  unfold State.memReadWord State.memRead
  cases accessible s.cfg a <;> cases accessible s.cfg (a + 1) <;> simp <;> exact eq_comm

end Sys2Proof.Machine
end

