-- ==== Sys2Proof/Laws/PerInstr.lean ====
section
/-! SUPPORT. For every instruction: its word matches the row of the opcode table that carries its mnemonic
(spec/30_encoding.md R54). -/

namespace Sys2Proof.Laws.TableRow

/-- The instruction's word matches the row of its mnemonic. -/
def Statement (i : Instr) : Prop := ∃ r ∈ opcodeTable, r.mnemonic = i.mnemonic ∧ r.matchesWord (encode i) = true

theorem row_F000 {w b : Word} {m : String} {v : Nat} (e : w.toNat = v) (h : v / 4096 * 4096 = b.toNat) :
    OpcodeRow.matchesWord ⟨m, 0xF000, b⟩ w = true := by
  rw [OpcodeRow.matchesWord, beq_iff_eq]
  exact BitVec.eq_of_toNat_eq (by rw [mask_F000_toNat, e, h])

theorem row_F00F {w b : Word} {m : String} {v : Nat} (e : w.toNat = v) (h : v / 4096 * 4096 + v % 16 = b.toNat) :
    OpcodeRow.matchesWord ⟨m, 0xF00F, b⟩ w = true := by
  rw [OpcodeRow.matchesWord, beq_iff_eq]
  exact BitVec.eq_of_toNat_eq (by rw [mask_F00F_toNat, e, h])

theorem row_F0FF {w b : Word} {m : String} {v : Nat} (e : w.toNat = v) (h : v / 4096 * 4096 + v % 256 = b.toNat) :
    OpcodeRow.matchesWord ⟨m, 0xF0FF, b⟩ w = true := by
  rw [OpcodeRow.matchesWord, beq_iff_eq]
  exact BitVec.eq_of_toNat_eq (by rw [mask_F0FF_toNat, e, h])

theorem cls : Statement .cls :=
  ⟨⟨"CLS", 0xFFFF, 0x00E0⟩, by decide, rfl, by decide⟩

theorem ret : Statement .ret :=
  ⟨⟨"RET", 0xFFFF, 0x00EE⟩, by decide, rfl, by decide⟩

theorem jp (nnn : Addr12) : Statement (.jp nnn) :=
  ⟨⟨"JP_NNN", 0xF000, 0x1000⟩, by decide, rfl, row_F000 (ofNNN_toNat (by decide) nnn.isLt) (by simp; omega)⟩

theorem call (nnn : Addr12) : Statement (.call nnn) :=
  ⟨⟨"CALL_NNN", 0xF000, 0x2000⟩, by decide, rfl, row_F000 (ofNNN_toNat (by decide) nnn.isLt) (by simp; omega)⟩

theorem seImm (x : Nibble) (nn : Byte) : Statement (.seImm x nn) :=
  ⟨⟨"SE_VX__NN", 0xF000, 0x3000⟩, by decide, rfl, row_F000 (ofXNN_toNat (by decide) x.isLt nn.isLt) (by simp; omega)⟩

theorem sneImm (x : Nibble) (nn : Byte) : Statement (.sneImm x nn) :=
  ⟨⟨"SNE_VX__NN", 0xF000, 0x4000⟩, by decide, rfl, row_F000 (ofXNN_toNat (by decide) x.isLt nn.isLt) (by simp; omega)⟩

theorem seReg (x : Nibble) (y : Nibble) : Statement (.seReg x y) :=
  ⟨⟨"SE_VX__VY", 0xF00F, 0x5000⟩, by decide, rfl, row_F00F (ofNibbles_toNat (by decide) x.isLt y.isLt (by decide)) (by simp; omega)⟩

theorem ldImm (x : Nibble) (nn : Byte) : Statement (.ldImm x nn) :=
  ⟨⟨"LD_VX__NN", 0xF000, 0x6000⟩, by decide, rfl, row_F000 (ofXNN_toNat (by decide) x.isLt nn.isLt) (by simp; omega)⟩

theorem addImm (x : Nibble) (nn : Byte) : Statement (.addImm x nn) :=
  ⟨⟨"ADD_VX__NN", 0xF000, 0x7000⟩, by decide, rfl, row_F000 (ofXNN_toNat (by decide) x.isLt nn.isLt) (by simp; omega)⟩

theorem ldReg (x : Nibble) (y : Nibble) : Statement (.ldReg x y) :=
  ⟨⟨"LD_VX__VY", 0xF00F, 0x8000⟩, by decide, rfl, row_F00F (ofNibbles_toNat (by decide) x.isLt y.isLt (by decide)) (by simp; omega)⟩

theorem orReg (x : Nibble) (y : Nibble) : Statement (.orReg x y) :=
  ⟨⟨"OR_VX__VY", 0xF00F, 0x8001⟩, by decide, rfl, row_F00F (ofNibbles_toNat (by decide) x.isLt y.isLt (by decide)) (by simp; omega)⟩

theorem andReg (x : Nibble) (y : Nibble) : Statement (.andReg x y) :=
  ⟨⟨"AND_VX__VY", 0xF00F, 0x8002⟩, by decide, rfl, row_F00F (ofNibbles_toNat (by decide) x.isLt y.isLt (by decide)) (by simp; omega)⟩

theorem xorReg (x : Nibble) (y : Nibble) : Statement (.xorReg x y) :=
  ⟨⟨"XOR_VX__VY", 0xF00F, 0x8003⟩, by decide, rfl, row_F00F (ofNibbles_toNat (by decide) x.isLt y.isLt (by decide)) (by simp; omega)⟩

theorem addReg (x : Nibble) (y : Nibble) : Statement (.addReg x y) :=
  ⟨⟨"ADD_VX__VY", 0xF00F, 0x8004⟩, by decide, rfl, row_F00F (ofNibbles_toNat (by decide) x.isLt y.isLt (by decide)) (by simp; omega)⟩

theorem sub (x : Nibble) (y : Nibble) : Statement (.sub x y) :=
  ⟨⟨"SUB_VX__VY", 0xF00F, 0x8005⟩, by decide, rfl, row_F00F (ofNibbles_toNat (by decide) x.isLt y.isLt (by decide)) (by simp; omega)⟩

theorem shr (x : Nibble) (y : Nibble) : Statement (.shr x y) :=
  ⟨⟨"SHR_VX____VY", 0xF00F, 0x8006⟩, by decide, rfl, row_F00F (ofNibbles_toNat (by decide) x.isLt y.isLt (by decide)) (by simp; omega)⟩

theorem subn (x : Nibble) (y : Nibble) : Statement (.subn x y) :=
  ⟨⟨"SUBN_VX__VY", 0xF00F, 0x8007⟩, by decide, rfl, row_F00F (ofNibbles_toNat (by decide) x.isLt y.isLt (by decide)) (by simp; omega)⟩

theorem shl (x : Nibble) (y : Nibble) : Statement (.shl x y) :=
  ⟨⟨"SHL_VX____VY", 0xF00F, 0x800E⟩, by decide, rfl, row_F00F (ofNibbles_toNat (by decide) x.isLt y.isLt (by decide)) (by simp; omega)⟩

theorem sneReg (x : Nibble) (y : Nibble) : Statement (.sneReg x y) :=
  ⟨⟨"SNE_VX__VY", 0xF00F, 0x9000⟩, by decide, rfl, row_F00F (ofNibbles_toNat (by decide) x.isLt y.isLt (by decide)) (by simp; omega)⟩

theorem ldI (nnn : Addr12) : Statement (.ldI nnn) :=
  ⟨⟨"LD_I__NNN", 0xF000, 0xA000⟩, by decide, rfl, row_F000 (ofNNN_toNat (by decide) nnn.isLt) (by simp; omega)⟩

theorem jpOff (nnn : Addr12) : Statement (.jpOff nnn) :=
  ⟨⟨"JP_V0__NNN", 0xF000, 0xB000⟩, by decide, rfl, row_F000 (ofNNN_toNat (by decide) nnn.isLt) (by simp; omega)⟩

theorem rnd (x : Nibble) (nn : Byte) : Statement (.rnd x nn) :=
  ⟨⟨"RND_VX__NN", 0xF000, 0xC000⟩, by decide, rfl, row_F000 (ofXNN_toNat (by decide) x.isLt nn.isLt) (by simp; omega)⟩

theorem drw (x : Nibble) (y : Nibble) (n : Nibble) : Statement (.drw x y n) :=
  ⟨⟨"DRW_VX__VY__N", 0xF000, 0xD000⟩, by decide, rfl, row_F000 (ofNibbles_toNat (by decide) x.isLt y.isLt n.isLt) (by simp; omega)⟩

theorem skp (x : Nibble) : Statement (.skp x) :=
  ⟨⟨"SKP_VX", 0xF0FF, 0xE09E⟩, by decide, rfl, row_F0FF (ofXNN_toNat (by decide) x.isLt (by decide)) (by simp; omega)⟩

theorem sknp (x : Nibble) : Statement (.sknp x) :=
  ⟨⟨"SKNP_VX", 0xF0FF, 0xE0A1⟩, by decide, rfl, row_F0FF (ofXNN_toNat (by decide) x.isLt (by decide)) (by simp; omega)⟩

theorem ldVxDt (x : Nibble) : Statement (.ldVxDt x) :=
  ⟨⟨"LD_VX__DT", 0xF0FF, 0xF007⟩, by decide, rfl, row_F0FF (ofXNN_toNat (by decide) x.isLt (by decide)) (by simp; omega)⟩

theorem ldVxK (x : Nibble) : Statement (.ldVxK x) :=
  ⟨⟨"LD_VX__K", 0xF0FF, 0xF00A⟩, by decide, rfl, row_F0FF (ofXNN_toNat (by decide) x.isLt (by decide)) (by simp; omega)⟩

theorem ldDtVx (x : Nibble) : Statement (.ldDtVx x) :=
  ⟨⟨"LD_DT__VX", 0xF0FF, 0xF015⟩, by decide, rfl, row_F0FF (ofXNN_toNat (by decide) x.isLt (by decide)) (by simp; omega)⟩

theorem ldStVx (x : Nibble) : Statement (.ldStVx x) :=
  ⟨⟨"LD_ST__VX", 0xF0FF, 0xF018⟩, by decide, rfl, row_F0FF (ofXNN_toNat (by decide) x.isLt (by decide)) (by simp; omega)⟩

theorem addI (x : Nibble) : Statement (.addI x) :=
  ⟨⟨"ADD_I__VX", 0xF0FF, 0xF01E⟩, by decide, rfl, row_F0FF (ofXNN_toNat (by decide) x.isLt (by decide)) (by simp; omega)⟩

theorem ldF (x : Nibble) : Statement (.ldF x) :=
  ⟨⟨"LD_F__VX", 0xF0FF, 0xF029⟩, by decide, rfl, row_F0FF (ofXNN_toNat (by decide) x.isLt (by decide)) (by simp; omega)⟩

theorem ldB (x : Nibble) : Statement (.ldB x) :=
  ⟨⟨"LD_B__VX", 0xF0FF, 0xF033⟩, by decide, rfl, row_F0FF (ofXNN_toNat (by decide) x.isLt (by decide)) (by simp; omega)⟩

theorem store (x : Nibble) : Statement (.store x) :=
  ⟨⟨"LD__I___VX", 0xF0FF, 0xF055⟩, by decide, rfl, row_F0FF (ofXNN_toNat (by decide) x.isLt (by decide)) (by simp; omega)⟩

theorem load (x : Nibble) : Statement (.load x) :=
  ⟨⟨"LD_VX___I", 0xF0FF, 0xF065⟩, by decide, rfl, row_F0FF (ofXNN_toNat (by decide) x.isLt (by decide)) (by simp; omega)⟩

end Sys2Proof.Laws.TableRow
end

