-- ==== Sys2Proof/Laws/Step.lean ====
section
/-! SUPPORT. What one instruction and one cycle can do, said once: the inversion lemmas that a proof about every
instruction or every cycle goes through. -/

namespace Sys2Proof.Machine

/-- Everything an instruction can do to a state: the next states `exec` can answer, with what is known of the
instruction in each case. -/
inductive Effect (i : Instr) (s : State) : State → Prop where
  /-- a fault is taken -/
  | fault (c : FaultCause) : Effect i s (s.raise c i)
  /-- a jump or a skip, taken or not, or a key-wait that waits -/
  | moves (p : Word) : Effect i s (s.setPc p)
  | returns (l : List Word) (a : Word) (hi : i = .ret) (hs : s.stack = l ++ [a]) :
    Effect i s (State.setPc { s with stack := l } a)
  | calls (nnn : Addr12) (hi : i = .call nnn) (hl : s.cfg.stackLimit ≠ some s.stack.length) :
    Effect i s ((s.push s.pc).setPc (nnn.setWidth 16))
  /-- one register is written; VF only by an instruction that names it -/
  | register (x : Nibble) (b : Byte)
    (hi : x = vf → (∃ nn, i = .ldImm vf nn ∨ i = .addImm vf nn ∨ i = .rnd vf nn) ∨
      (∃ y, i = .ldReg vf y ∨ i = .orReg vf y ∨ i = .andReg vf y ∨ i = .xorReg vf y) ∨ i = .ldVxDt vf) :
    Effect i s (s.setV x b)
  | flagged (x y : Nibble) (r f : Byte)
    (hi : i = .addReg x y ∨ i = .sub x y ∨ i = .shr x y ∨ i = .subn x y ∨ i = .shl x y) :
    Effect i s (s.setResultAndFlag x r f)
  | index (w : Word) (hi : (∃ nnn, i = .ldI nnn) ∨ ∃ x, i = .ldF x) : Effect i s (s.setI w)
  | indexAdd (x : Nibble) (hi : i = .addI x) : Effect i s (s.setI (s.I + (s.getV x).setWidth 16)).flagIndex
  | delay (x : Nibble) (hi : i = .ldDtVx x) : Effect i s (s.setDT (s.getV x))
  | sound (x : Nibble) (hi : i = .ldStVx x) : Effect i s (s.setST (s.getV x))
  | key (x k : Nibble) (hi : i = .ldVxK x) (hr : s.released = some k) :
    Effect i s (State.setV { s with released := none } x (BitVec.ofNat 8 k.val))
  | clears (hi : i = .cls) : Effect i s s.clearScreen
  | draws (x y n : Nibble) (hi : i = .drw x y n) :
    Effect i s ((State.plot (drawCells x y n s) s).setV vf (boolToByte (State.collides (drawCells x y n s) s)))
  | digits (x : Nibble) (hi : i = .ldB x) : Effect i s (State.writeBytes (bcdCells s (s.getV x)) s)
  | stores (x : Nibble) (hi : i = .store x) :
    Effect i s ((State.writeBytes (storeCells s x) s).setI (indexAfterTransfer s x))
  | loads (x : Nibble) (hi : i = .load x) :
    Effect i s ((State.loadRegs (regsUpTo x) s).setI (indexAfterTransfer s x))

theorem Effect.of_withRange {addrs : List Nat} {i : Instr} {effect s : State} (h : Effect i s effect) :
    ∃ t, withRange addrs i effect s = .next t ∧ Effect i s t := by
  rcases withRange_cases addrs i effect s with ⟨-, e⟩ | ⟨a, -, e⟩
  · exact ⟨_, e, h⟩
  · exact ⟨_, e, .fault _⟩

theorem Effect.of_skipIf (i : Instr) (c : Bool) (s : State) : ∃ t, skipIf c s = .next t ∧ Effect i s t :=
  ⟨_, skipIf_eq c s, .moves _⟩

/-- Every instruction answers a next state, and that state is one of the effects. -/
theorem exec_effect (i : Instr) (s : State) : ∃ t, exec i s = .next t ∧ Effect i s t := by
  cases i with
  | cls => exact ⟨_, rfl, .clears rfl⟩
  | ret =>
    rcases s.pop_cases with ⟨-, h⟩ | ⟨l, a, hs, h⟩
    · exact ⟨s.raise .stackUnderflow .ret, by simp [exec, execRet, h], .fault _⟩
    · exact ⟨State.setPc { s with stack := l } a, by simp [exec, execRet, h], .returns l a rfl hs⟩
  | jp nnn => exact ⟨_, rfl, .moves _⟩
  | call nnn =>
    by_cases h : s.stackFull = true
    · exact ⟨s.raise .stackOverflow (.call nnn), by simp [exec, execCall, h], .fault _⟩
    · exact ⟨(s.push s.pc).setPc (nnn.setWidth 16), by simp [exec, execCall, h],
        .calls nnn rfl (by simpa [State.stackFull] using h)⟩
  | seImm x nn => exact Effect.of_skipIf _ _ _
  | sneImm x nn => exact Effect.of_skipIf _ _ _
  | seReg x y => exact Effect.of_skipIf _ _ _
  | ldImm x nn => exact ⟨_, rfl, .register x nn fun h => .inl ⟨nn, .inl (by rw [h])⟩⟩
  | addImm x nn => exact ⟨_, rfl, .register x _ fun h => .inl ⟨nn, .inr (.inl (by rw [h]))⟩⟩
  | ldReg x y => exact ⟨_, rfl, .register x _ fun h => .inr (.inl ⟨y, .inl (by rw [h])⟩)⟩
  | orReg x y => exact ⟨_, rfl, .register x _ fun h => .inr (.inl ⟨y, .inr (.inl (by rw [h]))⟩)⟩
  | andReg x y => exact ⟨_, rfl, .register x _ fun h => .inr (.inl ⟨y, .inr (.inr (.inl (by rw [h])))⟩)⟩
  | xorReg x y => exact ⟨_, rfl, .register x _ fun h => .inr (.inl ⟨y, .inr (.inr (.inr (by rw [h])))⟩)⟩
  | addReg x y => exact ⟨_, rfl, .flagged x y _ _ (.inl rfl)⟩
  | sub x y => exact ⟨_, rfl, .flagged x y _ _ (.inr (.inl rfl))⟩
  | shr x y => exact ⟨_, rfl, .flagged x y _ _ (.inr (.inr (.inl rfl)))⟩
  | subn x y => exact ⟨_, rfl, .flagged x y _ _ (.inr (.inr (.inr (.inl rfl))))⟩
  | shl x y => exact ⟨_, rfl, .flagged x y _ _ (.inr (.inr (.inr (.inr rfl))))⟩
  | sneReg x y => exact Effect.of_skipIf _ _ _
  | ldI nnn => exact ⟨_, rfl, .index _ (.inl ⟨nnn, rfl⟩)⟩
  | jpOff nnn => exact ⟨_, rfl, .moves _⟩
  | rnd x nn => exact ⟨_, rfl, .register x _ fun h => .inl ⟨nn, .inr (.inr (by rw [h]))⟩⟩
  | drw x y n => exact Effect.of_withRange (.draws x y n rfl)
  | skp x =>
    cases h : nibbleOfByte (s.getV x) with
    | none => exact ⟨s.raise (.keyOutOfRange (s.getV x)) (.skp x), by simp [exec, execSkp, h], .fault _⟩
    | some k => simpa [exec, execSkp, h] using Effect.of_skipIf (.skp x) (s.isPressed k) s
  | sknp x =>
    cases h : nibbleOfByte (s.getV x) with
    | none => exact ⟨s.raise (.keyOutOfRange (s.getV x)) (.sknp x), by simp [exec, execSknp, h], .fault _⟩
    | some k => simpa [exec, execSknp, h] using Effect.of_skipIf (.sknp x) (!s.isPressed k) s
  | ldVxDt x => exact ⟨_, rfl, .register x _ fun h => .inr (.inr (by rw [h]))⟩
  | ldVxK x =>
    cases h : s.released with
    | none =>
      refine ⟨s.setPc (s.pc - 2), ?_, .moves _⟩
      have e : ({ s with released := none } : State) = s := by rw [← h]
      simp [exec, execLdVxK, State.takeReleased, h, e]
    | some k => exact ⟨State.setV { s with released := none } x (BitVec.ofNat 8 k.val),
        by simp [exec, execLdVxK, State.takeReleased, h], .key x k rfl h⟩
  | ldDtVx x => exact ⟨_, rfl, .delay x rfl⟩
  | ldStVx x => exact ⟨_, rfl, .sound x rfl⟩
  | addI x => exact ⟨_, rfl, .indexAdd x rfl⟩
  | ldF x =>
    cases h : nibbleOfByte (s.getV x) with
    | none => exact ⟨s.raise (.fontDigitOutOfRange (s.getV x)) (.ldF x), by simp [exec, execLdF, h], .fault _⟩
    | some d => exact ⟨s.setI (glyphAddr s.cfg d), by simp [exec, execLdF, h], .index _ (.inr ⟨x, rfl⟩)⟩
  | ldB x => exact Effect.of_withRange (.digits x rfl)
  | store x => exact Effect.of_withRange (.stores x rfl)
  | load x => exact Effect.of_withRange (.loads x rfl)

/-- What an instruction that answers `t` did. -/
theorem effect_of_exec {i : Instr} {s t : State} (h : exec i s = .next t) : Effect i s t := by
  obtain ⟨u, hu, he⟩ := exec_effect i s
  rw [hu] at h
  exact Host.Outcome.next.inj h ▸ he

/-- The cycle of a core that runs, with the fetch read before the cycle's pacing and drain (R70). -/
theorem step_of_running {s : State} (hf : s.fault = none) :
    step s =
      match s.fetchWord with
      | .error c => .next (s.beginCycle.takeFault c none s.pc)
      | .ok w => runWord w s.beginCycle := by
  cases h : s.fetchWord <;> simp [step, hf, h]

/-- What a cycle that answers `t` did: the fetch faulted, the word was unrecognized, or its instruction ran. -/
theorem step_cases {s t : State} (h : step s = .next t) : s.fault = none ∧
    ((∃ c, s.fetchWord = .error c ∧ t = s.beginCycle.takeFault c none s.pc) ∨
     (∃ w e, s.fetchWord = .ok w ∧ decode w = .error e ∧
       t = s.beginCycle.takeFault .unrecognizedOpcode (some w) s.pc) ∨
     (∃ w i, s.fetchWord = .ok w ∧ decode w = .ok i ∧ exec i s.beginCycle.advance = .next t)) := by
  cases hf : s.fault with
  | some r => simp [step, hf] at h
  | none =>
    refine ⟨rfl, ?_⟩
    rw [step_of_running hf] at h
    split at h
    · next c hc => exact .inl ⟨c, hc, (Host.Outcome.next.inj h).symm⟩
    · next w hw =>
      unfold runWord at h
      split at h
      · next e he => exact .inr (.inl ⟨w, e, hw, he, by simpa using (Host.Outcome.next.inj h).symm⟩)
      · next i hi => exact .inr (.inr ⟨w, i, hw, hi, h⟩)

/-- A run of one cycle more (R132). -/
theorem State.cycles_succ (n : Nat) (s : State) :
    s.cycles (n + 1) =
      match step s with
      | .next t => t.cycles n
      | .fault r => .fault r
      | .refused r => .refused r := by
  simp only [State.cycles, Host.Core.run, Sys2Proof.core]
  cases step s <;> rfl

end Sys2Proof.Machine
end

