-- ==== Sys2Proof/Tests/Slice0.lean ====
section
/-! SUPPORT. Tests of the model. Expected results are those of spec/95_test_vectors.md (each test names its vector) or of
the encoding table of spec/30_encoding.md; the last part shows, for every statement with hypotheses, a concrete state
and operands that meet them. -/

open Sys2Proof Sys2Proof.Machine Sys2Proof.Claims

namespace Sys2Proof.Tests

/-- The reset state with the inputs of one cycle queued: no tick, no event, random byte 0xA7. -/
def start : State := { State.reset with inputs := [⟨false, [], 0xA7⟩] }

/-- The start with another configuration. -/
def startWith (c : Config) : State := { start with cfg := c }

/-- The start with other inputs for its cycle. -/
def fed (tick : Bool) (events : List KeyEvent) : State := { start with inputs := [⟨tick, events, 0⟩] }

/-- The outcome is a next state of which `p` holds. -/
def answers (o : Host.Outcome State Fault Refusal) (p : State → Bool) : Bool :=
  match o with
  | .next t => p t
  | .fault _ => false
  | .refused _ => false

/-- One cycle from `s` with the word `w` where it fetches ends in a state of which `p` holds. -/
def cycle (s : State) (w : Nat) (p : State → Bool) : Bool := answers (step (s.withFetchWord 16 w)) p

/-- One cycle from `s` with the word `w` where it fetches raises this fault. -/
def cycleFaults (s : State) (w : Nat) (c : FaultCause) : Bool :=
  cycle s w fun t => t.fault == some ⟨c, some (BitVec.ofNat 16 w), s.pc⟩ && t.pc == s.pc && t.V == s.V && t.I == s.I &&
    t.stack == s.stack && t.fb == s.fb && t.feed == s.feed

/-! ## Well-formedness: each check refuses an ill-formed term -/

theorem test_fontFits_refuses : Config.fontFits { fontBase := 0xFB1 } = false := by decide
theorem test_fontFits_accepts_the_last : Config.fontFits { fontBase := 0xFB0 } = true := by decide
theorem test_limitPositive_refuses : Config.limitPositive { stackLimit := some 0 } = false := by decide
theorem test_wellFormed_default : Config.default.wellFormed = true := by decide
theorem test_wellFormed_refuses_font : Config.wellFormed { fontBase := 0xFFF } = false := by decide
theorem test_wellFormed_refuses_limit : Config.wellFormed { stackLimit := some 0 } = false := by decide
theorem test_imageFits_refuses : imageFits (List.replicate 3585 0) = false := by
  rw [imageFits, List.length_replicate]; rfl
theorem test_imageFits_accepts_the_longest : imageFits (List.replicate 3584 0) = true := by
  rw [imageFits, List.length_replicate]; rfl
/-- The field types leave no ill-formed instruction: the bytes of an ill-formed word are refused by the decoder, and
fewer than two bytes too (R61). -/
theorem test_truncated_bytes_refused : decodeBytes [0x60] = .error .truncated := by decide

/-! ## Decoding: every constructor's word, written out from the pattern column of R54 -/

theorem test_decode_family0 : decode 0x00E0 = .ok .cls ∧ decode 0x00EE = .ok .ret := by decide
theorem test_decode_jumps : decode 0x1ABC = .ok (.jp 0xABC) ∧ decode 0x2DEF = .ok (.call 0xDEF) ∧
    decode 0xB2F0 = .ok (.jpOff 0x2F0) := by decide
theorem test_decode_skips : decode 0x3105 = .ok (.seImm 1 0x05) ∧ decode 0x4A7F = .ok (.sneImm 0xA 0x7F) ∧
    decode 0x5230 = .ok (.seReg 2 3) ∧ decode 0x9F10 = .ok (.sneReg 0xF 1) := by decide
theorem test_decode_immediates : decode 0x6A05 = .ok (.ldImm 0xA 0x05) ∧ decode 0x7C80 = .ok (.addImm 0xC 0x80) ∧
    decode 0xC30F = .ok (.rnd 3 0x0F) := by decide
theorem test_decode_family8 : decode 0x8120 = .ok (.ldReg 1 2) ∧ decode 0x8341 = .ok (.orReg 3 4) ∧
    decode 0x8562 = .ok (.andReg 5 6) ∧ decode 0x8783 = .ok (.xorReg 7 8) ∧ decode 0x89A4 = .ok (.addReg 9 0xA) ∧
    decode 0x8BC5 = .ok (.sub 0xB 0xC) ∧ decode 0x8DE6 = .ok (.shr 0xD 0xE) ∧ decode 0x8F07 = .ok (.subn 0xF 0) ∧
    decode 0x812E = .ok (.shl 1 2) := by decide
theorem test_decode_index_and_draw : decode 0xA300 = .ok (.ldI 0x300) ∧ decode 0xD12F = .ok (.drw 1 2 0xF) := by decide
theorem test_decode_keys : decode 0xE19E = .ok (.skp 1) ∧ decode 0xEFA1 = .ok (.sknp 0xF) := by decide
theorem test_decode_familyF : decode 0xF507 = .ok (.ldVxDt 5) ∧ decode 0xF30A = .ok (.ldVxK 3) ∧
    decode 0xF015 = .ok (.ldDtVx 0) ∧ decode 0xFF18 = .ok (.ldStVx 0xF) ∧ decode 0xF21E = .ok (.addI 2) ∧
    decode 0xF429 = .ok (.ldF 4) ∧ decode 0xF633 = .ok (.ldB 6) ∧ decode 0xF255 = .ok (.store 2) ∧
    decode 0xF765 = .ok (.load 7) := by decide
/-- Y8. -/
theorem test_decode_unrecognized : ([0x0000, 0x0123, 0x00E1, 0x00EF, 0x00FF, 0x5121, 0x9AB1, 0x8008, 0x800F, 0xE000,
    0xE09F, 0xF000, 0xF030, 0xF075, 0xFFFF] : List Word).all (fun w => (decode w).toOption == none) = true := by decide
/-- R39, R41, R53: the first byte is the high one. -/
theorem test_decode_bytes : decodeBytes [0x6A, 0x05, 0x77] = .ok (.ldImm 0xA 0x05, [0x77]) := by decide
theorem test_decode_table_word : decodeTableWord 16 0xA300 = some (.ldI 0x300) := by decide

/-! ## Fetch and the cycle -/

/-- Y2: an odd `pc`. -/
theorem test_Y2 : cycle { start with pc := 0x201 } 0x6007 (fun t => t.getV 0 == 0x07 && t.pc == 0x203) = true := by decide
/-- Y3: the last word of memory. -/
theorem test_Y3 : cycle { start with pc := 0xFFE } 0x1200 (fun t => t.pc == 0x200) = true := by decide
/-- Y4. -/
theorem test_Y4 : answers (step { start with pc := 0xFFF }) (fun t =>
    t.fault == some ⟨.memoryOutOfRange 0x1000, none, 0xFFF⟩ && t.pc == 0xFFF) = true := by decide
/-- Y6: a fetch that wraps. -/
theorem test_Y6 : cycle { startWith { memOob := .wrap } with pc := 0xFFF } 0x602A (fun t =>
    t.readCell 0xFFF == 0x60 && t.readCell 0 == 0x2A && t.getV 0 == 0x2A && t.pc == 0x1001) = true := by decide
/-- Y9: a fault keeps the pacing and the drain. -/
theorem test_Y9 : cycle { fed true [.keyDown 3] with DT := 5, ST := 1 } 0xFFFF (fun t => t.DT == 4 && t.ST == 0 &&
    t.isPressed 3 && t.pc == 0x200 && t.fault == some ⟨.unrecognizedOpcode, some 0xFFFF, 0x200⟩) = true := by decide
/-- Y10: Stop stops nothing. -/
theorem test_Y10 : cycle (fed false [.stop]) 0x6105 (fun t => t.stop && t.getV 1 == 0x05 && t.pc == 0x202) = true := by
  decide
/-- R125: from reset with nothing placed, the first cycle is the fault of the word 0x0000. -/
theorem test_reset_runs_into_the_empty_image : answers (step State.reset) (fun t =>
    t.fault == some ⟨.unrecognizedOpcode, some 0x0000, 0x200⟩ && t.pc == 0x200) = true := by decide
/-- R30: no cycle after a fault. -/
theorem test_no_cycle_after_a_fault (r : FaultRecord) : step { start with fault := some r } = .fault (.coreStopped r) := rfl
/-- R124: an image of two bytes, and a font byte that stays. -/
theorem test_construct : answers (construct Config.default [0x60, 0xFE]) (fun t => t.readCell 0x200 == 0x60 &&
    t.readCell 0x201 == 0xFE && t.readCell 0x202 == 0 && t.readCell 0x09F == 0x80 && t.readCell 0x0A0 == 0) = true := by
  decide
theorem test_construct_refuses_limit : construct { stackLimit := some 0 } [] = .refused .malformedConfiguration := rfl

/-! ## Control flow -/

theorem test_C2_ret : cycle { start with pc := 0x500, stack := [0x206, 0x404] } 0x00EE
    (fun t => t.pc == 0x404 && t.stack == [0x206]) = true := by decide
theorem test_C3_ret_empty : cycleFaults { start with pc := 0x300 } 0x00EE .stackUnderflow = true := by decide
theorem test_C4_jp : cycle start 0x1ABC (fun t => t.pc == 0xABC) = true := by decide
theorem test_C7_call : cycle { start with pc := 0x202 } 0x2300 (fun t => t.stack == [0x204] && t.pc == 0x300) = true := by
  decide
theorem test_C9_call_full : cycleFaults { startWith { stackLimit := some 2 } with stack := [0x204, 0x304], pc := 0x400 }
    0x2500 .stackOverflow = true := by decide
theorem test_C12_jpOff : cycle (start.setV 0 0xFF) 0xBFFF (fun t => t.pc == 0x10FE && t.getV 15 == 0) = true := by decide
theorem test_C13_jpOff_vx : cycle (((startWith { jumpOffsetUsesVx := true }).setV 3 0x04).setV 0 0x10) 0xB300
    (fun t => t.pc == 0x304) = true := by decide
theorem test_C15_seImm : cycle ({ start with pc := 0x206 }.setV 1 0x05) 0x3105 (fun t => t.pc == 0x20A) = true := by decide
theorem test_C16_seImm : cycle ({ start with pc := 0x206 }.setV 1 0x04) 0x3105 (fun t => t.pc == 0x208) = true := by decide
theorem test_C17_sneImm : cycle ({ start with pc := 0x206 }.setV 1 0x05) 0x4105 (fun t => t.pc == 0x208) = true := by decide
theorem test_C18_sneImm : cycle ({ start with pc := 0x206 }.setV 1 0x04) 0x4105 (fun t => t.pc == 0x20A) = true := by decide
theorem test_C19_seReg : cycle (({ start with pc := 0x210 }.setV 2 0x7F).setV 3 0x7F) 0x5230 (fun t => t.pc == 0x214)
    = true := by decide
theorem test_C20_seReg : cycle (({ start with pc := 0x210 }.setV 2 0x7F).setV 3 0x7E) 0x5230 (fun t => t.pc == 0x212)
    = true := by decide
theorem test_C22_sneReg : cycle (({ start with pc := 0x210 }.setV 2 0x01).setV 3 0x02) 0x9230 (fun t => t.pc == 0x214)
    = true := by decide
theorem test_C23_sneReg : cycle { start with pc := 0x210 } 0x9230 (fun t => t.pc == 0x212) = true := by decide

/-! ## Register arithmetic -/

/-- A1, W1. -/
theorem test_A1_ldImm : cycle start 0x6A05 (fun t => t.getV 0xA == 0x05 && t.pc == 0x202) = true := by decide
theorem test_A3_addImm : cycle ((start.setV 0 0xFF).setV 15 0x55) 0x7001 (fun t => t.getV 0 == 0 && t.getV 15 == 0x55)
    = true := by decide
theorem test_A5_ldReg : cycle (start.setV 1 0x42) 0x8010 (fun t => t.getV 0 == 0x42 && t.getV 1 == 0x42) = true := by decide
theorem test_A6_orReg : cycle (((start.setV 0 0xF0).setV 1 0x0F).setV 15 0x55) 0x8011
    (fun t => t.getV 0 == 0xFF && t.getV 15 == 0x55) = true := by decide
theorem test_A7_andReg : cycle ((start.setV 0 0xF0).setV 1 0x3C) 0x8012 (fun t => t.getV 0 == 0x30) = true := by decide
theorem test_A8_xorReg : cycle ((start.setV 0 0xF0).setV 1 0x3C) 0x8013 (fun t => t.getV 0 == 0xCC) = true := by decide
theorem test_A9_addReg : cycle ((start.setV 0 0xFF).setV 1 0x01) 0x8014 (fun t => t.getV 0 == 0 && t.getV 15 == 1)
    = true := by decide
theorem test_A12_addReg_vf : cycle ((start.setV 15 0x01).setV 1 0x01) 0x8F14 (fun t => t.getV 15 == 0) = true := by decide
theorem test_A15_sub : cycle ((start.setV 0 0x04).setV 1 0x05) 0x8015 (fun t => t.getV 0 == 0xFF && t.getV 15 == 0)
    = true := by decide
theorem test_A14_sub : cycle ((start.setV 0 0x05).setV 1 0x05) 0x8015 (fun t => t.getV 0 == 0 && t.getV 15 == 1)
    = true := by decide
theorem test_A18_shr : cycle ((start.setV 2 0x81).setV 3 0xFF) 0x8236 (fun t => t.getV 2 == 0x40 && t.getV 15 == 1)
    = true := by decide
theorem test_A21_shr_vy : cycle (((startWith { assignBeforeShift := true }).setV 2 0x81).setV 3 0x04) 0x8236
    (fun t => t.getV 2 == 0x02 && t.getV 15 == 0) = true := by decide
theorem test_A24_subn : cycle ((start.setV 0 0x05).setV 1 0x04) 0x8017 (fun t => t.getV 0 == 0xFF && t.getV 15 == 0)
    = true := by decide
theorem test_A25_subn : cycle ((start.setV 0 0x04).setV 1 0x05) 0x8017 (fun t => t.getV 0 == 0x01 && t.getV 15 == 1)
    = true := by decide
theorem test_A28_shl : cycle (start.setV 2 0x80) 0x820E (fun t => t.getV 2 == 0 && t.getV 15 == 1) = true := by decide
theorem test_A30_shl_vy : cycle ((startWith { assignBeforeShift := true }).setV 3 0xC0) 0x823E
    (fun t => t.getV 2 == 0x80 && t.getV 15 == 1 && t.getV 3 == 0xC0) = true := by decide
theorem test_A31_rnd : cycle start 0xC30F (fun t => t.getV 3 == 0x07) = true := by decide
theorem test_A34_rnd_vf : cycle start 0xCF80 (fun t => t.getV 15 == 0x80) = true := by decide

/-! ## Index register and memory -/

theorem test_M1_ldI : cycle start 0xA123 (fun t => t.I == 0x123) = true := by decide
theorem test_M2_addI : cycle (({ start with I := 0xFFE }.setV 2 0x03).setV 15 0x07) 0xF21E
    (fun t => t.I == 0x1001 && t.getV 15 == 1) = true := by decide
theorem test_M8_addI_vf : cycle ({ start with I := 0xFFF }.setV 15 0x01) 0xFF1E
    (fun t => t.I == 0x1000 && t.getV 15 == 1) = true := by decide
theorem test_M9_ldF : cycle (start.setV 4 0x0A) 0xF429 (fun t => t.I == 0x082) = true := by decide
theorem test_M13_ldF_fault : cycleFaults (start.setV 4 0x10) 0xF429 (.fontDigitOutOfRange 0x10) = true := by decide
theorem test_M14_ldB : cycle ({ start with I := 0x300 }.setV 0 0x9C) 0xF033 (fun t =>
    t.readCell 0x300 == 1 && t.readCell 0x301 == 5 && t.readCell 0x302 == 6 && t.I == 0x300) = true := by decide
theorem test_M19_ldB_wrap : cycle ({ startWith { memOob := .wrap } with I := 0xFFE }.setV 0 0xFF) 0xF033 (fun t =>
    t.readCell 0xFFE == 2 && t.readCell 0xFFF == 5 && t.readCell 0 == 5) = true := by decide
theorem test_M21_store : cycle ((({ startWith { incrementIndexOnBlockTransfer := true } with I := 0x300 }.setV 0 1).setV 1
    2).setV 2 3) 0xF255 (fun t => t.readCell 0x300 == 1 && t.readCell 0x301 == 2 && t.readCell 0x302 == 3 &&
    t.readCell 0x303 == 0 && t.I == 0x303) = true := by decide
theorem test_M25_store_fault : cycleFaults ({ start with I := 0xFFE }.setV 0 1) 0xF255 (.memoryOutOfRange 0x1000) = true := by
  decide
theorem test_M23_load : cycle { start with I := 0x300, mem := [(0x300, 2), (0x301, 5), (0x302, 4)] } 0xF265 (fun t =>
    t.getV 0 == 2 && t.getV 1 == 5 && t.getV 2 == 4 && t.getV 3 == 0 && t.I == 0x300) = true := by decide
theorem test_F3_load_fault : cycleFaults { start with I := 0x1005 } 0xF265 (.memoryOutOfRange 0x1005) = true := by decide
/-- The canonical form: writing what an unlisted cell reads as removes the entry. -/
theorem test_write_background_unlists : ((start.writeByte 0x050 0x11).writeByte 0x050 0xF0).mem = [] := by decide

/-! ## Display -/

theorem test_D1_cls : cycle (start.toggle 5) 0x00E0 (fun t => t.fb == Grid.clear &&
    t.feed == [.set 5 true, .clear]) = true := by decide
theorem test_D9_drw : cycle { start.toggle 0 with I := 0x300, mem := [(0x300, 0xC0)], feed := [] } 0xD011 (fun t =>
    !t.pixel 0 && t.pixel 1 && t.feed == [.set 0 false, .set 1 true] && t.getV 15 == 1) = true := by decide
theorem test_D12_drw : cycle (({ start with I := 0x300, mem := [(0x300, 0xFF), (0x301, 0xFF)] }.setV 0 0x3F).setV 1 0x1F)
    0xD012 (fun t => t.feed == [.set 2047 true] && t.pixel 2047 && t.getV 15 == 0) = true := by decide
theorem test_D7_drw_fault : cycleFaults { start with I := 0xFFF } 0xD012 (.memoryOutOfRange 0x1000) = true := by decide

/-! ## Keypad and timers -/

theorem test_K5_skp : cycle ((fed false [.keyDown 5]).setV 1 0x05) 0xE19E (fun t => t.pc == 0x204) = true := by decide
theorem test_K7_skp_fault : cycleFaults (start.setV 1 0x10) 0xE19E (.keyOutOfRange 0x10) = true := by decide
theorem test_K3_sknp : cycle (start.setV 1 0x05) 0xE1A1 (fun t => t.pc == 0x204) = true := by decide
theorem test_K8_sknp_fault : cycleFaults (start.setV 1 0xFF) 0xE1A1 (.keyOutOfRange 0xFF) = true := by decide
theorem test_K10_ldVxK : cycle { fed false [.keyDown 7] with pc := 0x204 } 0xF30A
    (fun t => t.isPressed 7 && t.pc == 0x204 && t.getV 3 == 0) = true := by decide
theorem test_K12_ldVxK : cycle (fed false [.keyUp 1, .keyUp 9]) 0xF30A
    (fun t => t.getV 3 == 0x09 && t.released == none && t.pc == 0x202) = true := by decide
theorem test_K15_ldVxDt : cycle { fed true [] with DT := 0x3C } 0xF507 (fun t => t.DT == 0x3B && t.getV 5 == 0x3B)
    = true := by decide
theorem test_K17_ldDtVx : cycle ({ fed true [] with DT := 9 }.setV 0 0x03) 0xF015 (fun t => t.DT == 3) = true := by decide
theorem test_K18_ldStVx : cycle ({ fed true [] with ST := 2 }.setV 0 0x10) 0xF018 (fun t => t.ST == 0x10) = true := by
  decide

/-! ## Witnesses: states and operands that meet the hypotheses of the statements -/

/-- The start with a word where it fetches. -/
def placed (w : Nat) : State := start.withFetchWord 16 w

theorem test_witness_DecodeOfEncodeIsIdentity : (Instr.drw 15 0 15).wellFormed = true := rfl
theorem test_witness_EncodeOfDecodeIsIdentity : decode 0xDFFF = .ok (.drw 15 15 15) := by decide
theorem test_witness_DecoderFollowsTheOpcodeTable : decode 0xFF65 = .ok (.load 15) ∧
    ∃ r ∈ opcodeTable, (0xFF65 : Word) &&& r.mask = r.bits := by decide
theorem test_witness_RecognizedWordsByFamily : (decode 0x5FF0).toOption = some (.seReg 15 15) ∧
    (decode 0x5FF1).toOption = none := by decide
theorem test_witness_MemoryReadFollowsTheRangeRule : (4095 < 4096 ∧ start.memRead 4095 = .ok 0) ∧
    (4096 ≤ 4096 ∧ start.cfg.memOob = .fault ∧ start.memRead 4096 = .error (.memoryOutOfRange 4096)) ∧
    (startWith { memOob := .wrap }).cfg.memOob = .wrap := by decide
theorem test_witness_WordReadIsBigEndian :
    (start.memRead 4094 = .ok 0 ∧ start.memRead (4094 + 1) = .ok 0) ∧
    start.memRead 4096 = .error (.memoryOutOfRange 4096) ∧
    (start.memRead 4095 = .ok 0 ∧ start.memRead (4095 + 1) = .error (.memoryOutOfRange 4096)) ∧
    (startWith { memOob := .wrap }).cfg.memOob = .wrap := by decide
/-- The last two bytes of memory, and a range that wraps. -/
theorem test_witness_StoredBytesAreFetched : (1 ≤ (1 : Nibble).val ∧ BlockInRange { start with I := 0xFFE } 2) ∧
    BlockInRange { startWith { memOob := .wrap } with I := 0xFFFF } 16 ∧
    answers (exec (.store 1) { start with I := 0xFFE }) (fun t => ({ t with pc := 0xFFE } : State).pc == 0xFFE) = true := by
  refine ⟨⟨by decide, .inl (by decide)⟩, .inr rfl, by decide⟩
theorem test_witness_StepRunsTheDecodedInstruction : (placed 0x6A05).fault = none ∧
    (placed 0x6A05).memRead (placed 0x6A05).pc.toNat = .ok 0x6A ∧
    (placed 0x6A05).memRead ((placed 0x6A05).pc.toNat + 1) = .ok 0x05 ∧
    decodeBytes [0x6A, 0x05] = .ok (.ldImm 0xA 0x05, []) := by decide
theorem test_witness_TimersArePacedOncePerTick :
    (fed true []).inputs = ⟨true, [], 0⟩ :: [] ∧ (fed false []).inputs = ⟨false, [], 0⟩ :: [] := by decide
theorem test_witness_DrainAppliesEventsInOrder :
    ([KeyEvent.keyUp 0, .keyDown 0, .stop] = [.keyUp 0] ++ .keyDown 0 :: [.stop] ∧
      [KeyEvent.stop].any (isAbout 0) = false) ∧
    ([KeyEvent.keyDown 15, .keyUp 15, .keyDown 14] = [.keyDown 15] ++ .keyUp 15 :: [.keyDown 14] ∧
      [KeyEvent.keyDown 14].any (isAbout 15) = false ∧ [KeyEvent.keyDown 14].any isKeyUp = false) ∧
    [KeyEvent.stop].any isKeyUp = false := by decide
theorem test_witness_TopOfCycleFrame : State.reset.inputs = [] := rfl
theorem test_witness_FetchPastMemoryFaults : ({ start with pc := 0xFFF } : State).fault = none ∧
    start.cfg.memOob = .fault ∧ 0x0FFF ≤ (0xFFF : Word).toNat ∧ 0x0FFF ≤ (0x1000 : Word).toNat := by decide
theorem test_witness_UnrecognizedWordFaults : (placed 0xF030).fault = none ∧ (placed 0xF030).fetchWord = .ok 0xF030 ∧
    decode 0xF030 = .error .familyF := by decide
theorem test_witness_FaultedCoreTakesNoCycle :
    ({ start with fault := some ⟨.stackUnderflow, some 0x00EE, 0x200⟩ } : State).fault =
      some ⟨.stackUnderflow, some 0x00EE, 0x200⟩ := rfl
theorem test_witness_EveryCycleOfARunningCoreCompletes : start.fault = none := rfl
theorem test_witness_FaultsArePrecise : (placed 0x00EE).fault = none ∧
    answers (step (placed 0x00EE)) (fun t => t.fault == some ⟨.stackUnderflow, some 0x00EE, 0x200⟩) = true := by decide
/-- The cycle's six codes: a word of no row, a fetch past memory, and an instruction's own fault. -/
theorem test_witness_FaultsComeFromTheirNamedCauses_cycle :
    answers (step (placed 0xFFFF)) (fun t => t.fault == some ⟨.unrecognizedOpcode, some 0xFFFF, 0x200⟩) = true ∧
    answers (step { start with pc := 0xFFF }) (fun t => t.fault == some ⟨.memoryOutOfRange 4096, none, 0xFFF⟩) = true ∧
    answers (step { start with pc := 0x1001 }) (fun t => t.fault == some ⟨.memoryOutOfRange 0x1001, none, 0x1001⟩) = true ∧
    answers (step { placed 0xFF65 with I := 0xFF1 }) (fun t =>
      t.fault == some ⟨.memoryOutOfRange 4096, some 0xFF65, 0x200⟩) = true := by decide
/-- One witness for each of the five codes an instruction raises. -/
theorem test_witness_FaultsComeFromTheirNamedCauses :
    answers (exec .ret start) (fun t => t.fault.isSome) = true ∧
    answers (exec (.store 15) { start with I := 0xFF1 }) (fun t => t.fault.isSome) = true ∧
    answers (exec (.drw 0 0 2) { start with I := 0xFFF }) (fun t => t.fault.isSome) = true ∧
    answers (exec (.call 0) { startWith { stackLimit := some 1 } with stack := [0] }) (fun t => t.fault.isSome) = true ∧
    answers (exec (.skp 0) (start.setV 0 16)) (fun t => t.fault.isSome) = true ∧
    answers (exec (.sknp 0) (start.setV 0 16)) (fun t => t.fault.isSome) = true ∧
    answers (exec (.ldF 0) (start.setV 0 16)) (fun t => t.fault.isSome) = true := by decide
theorem test_witness_ConfigurationNeverChanges : answers (step (placed 0xD001)) (fun _ => true) = true := by decide
theorem test_witness_StopLatchOnlyLatches : answers (step (placed 0x6000)) (fun t => !t.stop) = true := by decide
theorem test_witness_NothingReadsTheSoundTimer : answers (step (placed 0xF018)) (fun t => t.ST == 0) = true := by decide
theorem test_witness_FeedIsAppendOnlyAndNeverRead : answers (step (placed 0x00E0)) (fun t => t.feed == [.clear]) = true := by
  decide
/-- For each conditional clause an instruction that changes the component. -/
theorem test_witness_ComponentsHaveOnlyTheirNamedWriters :
    answers (exec (.call 0) start) (fun t => t.stack != start.stack) = true ∧
    answers (exec (.store 0) (start.setV 0 1)) (fun t => t.readByte 0 != start.readByte 0) = true ∧
    answers (exec (.load 0) (startWith { incrementIndexOnBlockTransfer := true })) (fun t => t.I != start.I) = true ∧
    answers (exec (.ldDtVx 0) (start.setV 0 1)) (fun t => t.DT != start.DT) = true ∧
    answers (exec (.ldStVx 0) (start.setV 0 1)) (fun t => t.ST != start.ST) = true ∧
    answers (exec (.ldVxK 0) { start with released := some 15 }) (fun t => t.released != some 15) = true ∧
    answers (exec .cls (start.toggle 0)) (fun t => t.fb != (start.toggle 0).fb) = true := by decide
/-- For each group of writers an instruction that changes VF. -/
theorem test_witness_FlagHasOnlyItsNamedWriters :
    answers (exec (.ldImm 15 1) start) (fun t => t.getV 15 != start.getV 15) = true ∧
    answers (exec (.ldReg 15 0) (start.setV 0 1)) (fun t => t.getV 15 != start.getV 15) = true ∧
    answers (exec (.ldVxDt 15) { start with DT := 1 }) (fun t => t.getV 15 != start.getV 15) = true ∧
    answers (exec (.ldVxK 15) { start with released := some 1 }) (fun t => t.getV 15 != start.getV 15) = true ∧
    answers (exec (.load 15) { start with mem := [(15, 1)] }) (fun t => t.getV 15 != start.getV 15) = true ∧
    answers (exec (.sub 0 1) start) (fun t => t.getV 15 != start.getV 15) = true ∧
    answers (exec (.addI 0) { start with I := 0x1000 }) (fun t => t.getV 15 != start.getV 15) = true := by decide
theorem test_witness_StepKeepsMemoryCanonical :
    ({ placed 0xF055 with V := Vector.replicate 16 7, I := 0x300 } : State).MemoryCanonical ∧
    answers (step { placed 0xF055 with V := Vector.replicate 16 7, I := 0x300 }) (fun t => t.readCell 0x300 == 7) = true := by
  decide
theorem test_witness_StepKeepsTheReplayLaw : (placed 0xD001).FeedReplays ∧
    answers (step { placed 0xD001 with I := 0x050 }) (fun t => t.feed.length == 4) = true := by decide
/-- The invariant at a state with memory, a stack and a limit. -/
theorem test_witness_EveryReachableStateMeetsTheInvariant :
    ({ placed 0x2200 with cfg := { stackLimit := some 1 } } : State).Inv ∧
    answers (State.cycles 1 { placed 0x2200 with cfg := { stackLimit := some 1 } }) (fun t => t.stack.length == 1) = true :=
  ⟨⟨by decide, by decide, by decide, fun n _ => Nat.zero_le n⟩, by decide⟩
theorem test_witness_ConstructionMeetsTheInvariant :
    answers (construct { fontBase := 0x1C0 } [0x12, 0x00]) (fun t => t.readCell 0x200 == 0x12) = true := by decide
/-- The longest image, and the font table at the highest base. -/
theorem test_witness_ConstructionLoadsTheImage : Config.wellFormed { fontBase := 0xFB0 } = true ∧
    (List.replicate 3584 (7 : Byte)).length ≤ 3584 ∧ (List.replicate 3584 (7 : Byte))[3583]? = some 7 ∧
    (0x1FF < 4096 ∧ 0x1FF < 0x200) ∧ (4095 < 4096 ∧ 0x200 + ([] : List Byte).length ≤ 4095) := by
  refine ⟨by decide, by rw [List.length_replicate], by rw [List.getElem?_replicate]; rfl, by decide, by decide⟩
theorem test_witness_ConstructionRefusals : (0xFB1 : Addr12).toNat + 80 > 4096 ∧ (0xFB0 : Addr12).toNat + 80 ≤ 4096 ∧
    Config.default.stackLimit ≠ some 0 ∧ (List.replicate 3585 (0 : Byte)).length > 3584 ∧
    (List.replicate 3584 (0 : Byte)).length ≤ 3584 := by
  refine ⟨by decide, by decide, by decide, by rw [List.length_replicate]; decide, by rw [List.length_replicate]⟩
theorem test_witness_CallPushesAndJumps : start.cfg.stackLimit ≠ some start.stack.length ∧
    (startWith { stackLimit := some 1 }).cfg.stackLimit ≠ some start.stack.length ∧
    ({ startWith { stackLimit := some 1 } with stack := [0x204] } : State).cfg.stackLimit = some 1 := by decide
theorem test_witness_ReturnPopsIntoPc : ({ start with stack := [0xFFFF] } : State).stack = [] ++ [0xFFFF] ∧
    start.stack = [] := by decide
theorem test_witness_ReturnUndoesCall : start.cfg.stackLimit ≠ some start.stack.length ∧
    answers (exec (.call 0x300) start) (fun t => ({ t with pc := 0x300 } : State).stack == t.stack) = true := by decide
theorem test_witness_JumpWithOffset : start.cfg.jumpOffsetUsesVx = false ∧
    (startWith { jumpOffsetUsesVx := true }).cfg.jumpOffsetUsesVx = true ∧ (15 : Nibble).val = (0xFFF : Addr12).toNat / 256 := by
  decide
theorem test_witness_RegisterArithmetic : (14 : Nibble) ≠ 15 ∧ (0 : Nibble) ≠ 15 := by decide
theorem test_witness_ShiftsMoveOneBitIntoTheFlag : ((start.setV 2 0xFF).getV 2).toNat = 255 := by decide
theorem test_witness_RandomByteUnderMask : ({ start with rnd := 0xFF } : State).rnd = 0xFF := rfl
/-- Each flag clause: above the ceiling, at it with the clearing on and off, and with the flag off. -/
theorem test_witness_AddToIndexFlagsTheCeiling :
    answers (exec (.addI 0) { start with I := 0x1000 }) (fun t => t.cfg.flagIndexOverflow && decide (t.I.toNat > 0x0FFF)) = true ∧
    answers (exec (.addI 0) { start with I := 0x0FFF }) (fun t =>
      t.cfg.flagIndexOverflow && t.cfg.fx1eClearsVf && decide (t.I.toNat ≤ 0x0FFF)) = true ∧
    (startWith { fx1eClearsVf := false }).cfg.fx1eClearsVf = false ∧
    (startWith { flagIndexOverflow := false }).cfg.flagIndexOverflow = false := by decide
theorem test_witness_FontAddress : ((start.setV 0 15).getV 0).toNat ≤ 15 ∧ ((start.setV 0 16).getV 0).toNat > 15 := by decide
/-- Ranges that end at the last cell, and one that wraps. -/
theorem test_witness_blocks_in_range : BlockInRange { start with I := 0xFFD } 3 ∧
    BlockInRange { start with I := 0xFF0 } ((15 : Nibble).val + 1) ∧
    BlockInRange { startWith { memOob := .wrap } with I := 0xFFFF } 16 ∧ (14 : Nibble) < 15 := by
  refine ⟨.inl (by decide), .inl (by decide), .inr rfl, by decide⟩
theorem test_witness_OutOfRangeTransfersFault : start.cfg.memOob = .fault ∧
    ({ start with I := 0xFFE } : State).I.toNat + 3 > 4096 ∧
    ({ start with I := 0xFF1 } : State).I.toNat + ((15 : Nibble).val + 1) > 4096 ∧
    0 < visibleRows { start with I := 0xFFF } 0 2 ∧
    ({ start with I := 0xFFF } : State).I.toNat + visibleRows { start with I := 0xFFF } 0 2 > 4096 := by decide
theorem test_witness_StoreThenLoadRestoresRegisters :
    answers (exec (.store 15) { start with I := 0xFF0 }) (fun t =>
      answers (exec (.load 15) { t with V := Vector.replicate 16 9, I := 0xFF0 }) (fun v => v.getV 15 == 0)) = true := by decide
/-- A covered cell that is set, one that is clear, a cell not covered, and a draw of no rows. -/
theorem test_witness_DrawXorsTheSprite : BlockInRange { start.toggle 0 with I := 0x050 } (visibleRows start 0 1) ∧
    Covers { start.toggle 0 with I := 0x050 } 0 0 1 0 0 ∧ (start.toggle 0).pixel (cellIndex 0 0) = true ∧
    Covers { start.toggle 0 with I := 0x050 } 0 0 1 3 0 ∧ (start.toggle 0).pixel (cellIndex 3 0) = false ∧
    (¬ Covers { start.toggle 0 with I := 0x050 } 0 0 1 63 31) ∧
    visibleRows { start with I := 0x1000 } 0 0 = 0 := by
  refine ⟨.inl (by decide), ?_, by decide, ?_, by decide, ?_, by decide⟩
  · unfold Covers spriteBit; decide
  · unfold Covers spriteBit; decide
  · unfold Covers spriteBit; decide
theorem test_witness_DrawingTwiceRestoresTheDisplay : (14 : Nibble) ≠ 15 ∧
    BlockInRange { start with I := 0x050 } (visibleRows { start with I := 0x050 } 14 15) := ⟨by decide, .inl (by decide)⟩
theorem test_witness_KeySkips : ((start.setV 0 15).getV 0).toNat = (15 : Nibble).val ∧
    ((start.setV 0 16).getV 0).toNat > 15 := by decide
theorem test_witness_KeyWaitConsumesOrRetries : ({ start with released := some 15 } : State).released = some 15 ∧
    start.released = none := by decide
theorem test_witness_KeyWaitHoldsWithoutARelease :
    ({ placed 0xF30A with inputs := [⟨true, [.keyDown 3, .stop], 0⟩] } : State).fault = none ∧
    ({ placed 0xF30A with inputs := [⟨true, [.keyDown 3, .stop], 0⟩] } : State).released = none ∧
    ({ placed 0xF30A with inputs := [⟨true, [.keyDown 3, .stop], 0⟩] } : State).fetchWord = .ok 0xF30A ∧
    decode 0xF30A = .ok (.ldVxK 3) ∧
    ∀ c ∈ ({ placed 0xF30A with inputs := [⟨true, [.keyDown 3, .stop], 0⟩] } : State).inputs.take 2,
      c.events.any isKeyUp = false := by decide
/-- For `Encodes` in LoadImmediate and LoadIndex: words that the mask and the bits select. -/
theorem test_witness_Encodes : (0x6FFF : Word) &&& 0xF000 = 0x6000 ∧ (0xAFFF : Word) &&& 0xF000 = 0xA000 := by decide

end Sys2Proof.Tests
end

section
/-! PROOFS. What every cycle keeps: the configuration, the canonical form of memory, the replay law and the stack bound.
Each is shown of one `Effect`, carried over a cycle by `step_keeps`, and over a run by `State.cycles_keep`. -/

namespace Sys2Proof.Machine

/-! ### Induction over a cycle and over a run -/

/-- A property that the top of a cycle, a fault and every effect of an instruction keep is kept by every cycle. -/
theorem step_keeps {P : State → Prop} (top : ∀ s, P s → P s.beginCycle)
    (fault : ∀ s c w p, P s → P (State.takeFault s c w p)) (effect : ∀ {i s t}, Effect i s t → P s → P t)
    {s t : State} (h : step s = .next t) (hs : P s) : P t := by
  obtain ⟨-, ⟨c, -, rfl⟩ | ⟨w, e, -, -, rfl⟩ | ⟨w, i, -, -, he⟩⟩ := step_cases h
  · exact fault _ _ _ _ (top _ hs)
  · exact fault _ _ _ _ (top _ hs)
  · have advanced : P s.beginCycle.advance := effect (i := i) (.moves _) (top _ hs)
    exact effect (effect_of_exec he) advanced

/-- A property that every cycle keeps is kept by a run of any length (R132). -/
theorem State.cycles_keep {P : State → Prop} (keeps : ∀ {s t}, step s = .next t → P s → P t) {n : Nat}
    {s t : State} (h : s.cycles n = .next t) (hs : P s) : P t := by
  induction n generalizing s with
  | zero => exact Host.Outcome.next.inj h ▸ hs
  | succ n ih =>
    rw [State.cycles_succ] at h
    cases hstep : step s with
    | next u => rw [hstep] at h; exact ih h (keeps hstep hs)
    | fault r => simp [hstep] at h
    | refused r => simp [hstep] at h

/-! ### What one instruction keeps -/

theorem Effect.cfg_eq {i : Instr} {s t : State} (h : Effect i s t) : t.cfg = s.cfg := by
  cases h <;> simp

/-- Only the two stores write memory, and a sequence of byte writes keeps the canonical form. -/
theorem Effect.memoryCanonical {i : Instr} {s t : State} (h : Effect i s t) (hs : s.MemoryCanonical) :
    t.MemoryCanonical := by
  cases h with
  | digits x hi => exact Memory.wf_writeBytes _ hs
  | stores x hi => simpa [State.MemoryCanonical] using Memory.wf_writeBytes (storeCells s x) hs
  | _ => simpa [State.MemoryCanonical] using hs

/-- Only a clear and a draw touch the display, and each emits what it does to the framebuffer (R26, R27). -/
theorem Effect.feedReplays {i : Instr} {s t : State} (h : Effect i s t) (hs : s.FeedReplays) : t.FeedReplays := by
  cases h with
  | clears hi => exact replay_append_clear _
  | draws x y n hi => simpa [State.FeedReplays] using State.replay_plot (drawCells x y n s) hs
  | _ => simpa [State.FeedReplays] using hs

/-- A return shortens the stack, and a call pushes only below the limit (R18). -/
theorem Effect.stackBounded {i : Instr} {s t : State} (h : Effect i s t) (hs : s.StackBounded) : t.StackBounded := by
  intro n hn
  have bound : s.stack.length ≤ n := hs n (h.cfg_eq ▸ hn)
  cases h with
  | returns l a hi hst =>
    simp only [hst, List.length_append] at bound
    simp only [State.setPc_stack]
    omega
  | calls nnn hi hlimit =>
    have below : s.stack.length ≠ n := fun e => hlimit (e ▸ hn)
    simp only [State.setPc_stack, State.push_stack, List.length_append, List.length_singleton]
    omega
  | _ => simpa using bound

/-! ### What one cycle keeps -/

/-- R6, R33: no cycle writes the configuration. -/
theorem step_cfg {s t : State} (h : step s = .next t) : t.cfg = s.cfg :=
  step_keeps (P := fun u => u.cfg = s.cfg) (fun _ hu => by simpa using hu) (fun _ _ _ _ hu => by simpa using hu)
    (fun he hu => he.cfg_eq.trans hu) h rfl

theorem step_memoryCanonical {s t : State} (h : step s = .next t) (hs : s.MemoryCanonical) : t.MemoryCanonical :=
  step_keeps (fun _ hu => by simpa [State.MemoryCanonical] using hu) (fun _ _ _ _ hu => hu) Effect.memoryCanonical h hs

theorem step_feedReplays {s t : State} (h : step s = .next t) (hs : s.FeedReplays) : t.FeedReplays :=
  step_keeps (fun _ hu => by simpa [State.FeedReplays] using hu) (fun _ _ _ _ hu => hu) Effect.feedReplays h hs

theorem step_stackBounded {s t : State} (h : step s = .next t) (hs : s.StackBounded) : t.StackBounded :=
  step_keeps (fun _ hu => by simpa [State.StackBounded] using hu) (fun _ _ _ _ hu => hu) Effect.stackBounded h hs

/-- Every cycle keeps the invariant, clause by clause. -/
theorem step_inv {s t : State} (h : step s = .next t) (hs : s.Inv) : t.Inv where
  config := by rw [step_cfg h]; exact hs.config
  memory := step_memoryCanonical h hs.memory
  replays := step_feedReplays h hs.replays
  bounded := step_stackBounded h hs.bounded

/-! ### The obligations -/

/-- Settles O27, by induction on the length of the run: every cycle keeps the invariant and the configuration. -/
theorem everyReachableStateMeetsTheInvariant : Obligations.EveryReachableStateMeetsTheInvariant := by
  intro n s t hs h
  exact ⟨State.cycles_keep step_inv h hs,
    State.cycles_keep (P := fun u => u.cfg = s.cfg) (fun hstep hu => (step_cfg hstep).trans hu) h rfl⟩

/-- Settles O19: the configuration is kept by the top of a cycle, by a fault and by every effect. -/
theorem configurationNeverChanges : Obligations.ConfigurationNeverChanges := by
  intro s t h
  exact step_cfg h

end Sys2Proof.Machine
end

section
/-! PROOFS. When construction answers a core, and which of its two refusals it answers otherwise. -/

namespace Sys2Proof

/-- R7, in the fields of the configuration. -/
theorem Config.wellFormed_iff (c : Config) :
    c.wellFormed = true ↔ c.fontBase.toNat + 80 ≤ 4096 ∧ c.stackLimit ≠ some 0 := by
  have limit : c.limitPositive = true ↔ c.stackLimit ≠ some 0 := by
    cases h : c.stackLimit with
    | none => simp [Config.limitPositive, h]
    | some n => simp [Config.limitPositive, h]; omega
  rw [Config.wellFormed, Bool.and_eq_true, limit, Config.fontFits, decide_eq_true_iff]

theorem imageFits_iff (image : List Byte) : imageFits image = true ↔ image.length ≤ 3584 := by
  rw [imageFits, decide_eq_true_iff]

namespace Machine

/-! ### The three answers of construction -/

theorem construct_eq_malformed_iff {c : Config} {image : List Byte} :
    construct c image = .refused .malformedConfiguration ↔ ¬ c.wellFormed = true := by
  unfold construct
  split_ifs <;> simp_all

theorem construct_eq_tooLong_iff {c : Config} {image : List Byte} :
    construct c image = .refused .imageTooLong ↔ c.wellFormed = true ∧ ¬ imageFits image = true := by
  unfold construct
  split_ifs <;> simp_all

theorem exists_construct_eq_next_iff {c : Config} {image : List Byte} :
    (∃ s, construct c image = .next s) ↔ c.wellFormed = true ∧ imageFits image = true := by
  unfold construct
  split_ifs <;> simp_all

/-- Settles O31: the two checks of construction, each read as a condition on the configuration or the image. -/
theorem constructionRefusals : Obligations.ConstructionRefusals := by
  intro c image
  rw [construct_eq_malformed_iff, construct_eq_tooLong_iff, exists_construct_eq_next_iff, Config.wellFormed_iff,
    imageFits_iff]
  refine ⟨?_, ?_, ?_⟩
  · rw [not_and_or, not_le, not_not]
  · rw [not_le, and_assoc]
  · rw [and_assoc]

end Machine

end Sys2Proof
end

section
/-! PROOFS. The display feed and construction: the replay law is kept by every step, a faulted core takes no step, and
what construction gives meets the invariant and has the reset values. -/

namespace Sys2Proof.Machine

/-- Settles O26: a clear and a draw emit what they do to the framebuffer, and nothing else touches either. -/
theorem stepKeepsTheReplayLaw : Obligations.StepKeepsTheReplayLaw := by
  intro s t hs h
  exact step_feedReplays h hs

/-- Settles O15: the step looks at the fault record first. -/
theorem faultedCoreTakesNoCycle : Obligations.FaultedCoreTakesNoCycle := by
  intro s r h
  simp [step, h]

/-! ### The invariant at construction -/

/-- The state construction starts from: nothing is listed in memory, on the stack or in the feed (R34). -/
theorem State.reset_withCfg_inv {c : Config} (hc : c.wellFormed = true) : State.Inv { State.reset with cfg := c } where
  config := hc
  memory := rfl
  replays := rfl
  bounded := fun n _ => Nat.zero_le n

/-- Writing bytes touches memory alone, and keeps its canonical form. -/
theorem State.Inv.writeBytes {s : State} (hs : s.Inv) (l : List (Nat × Byte)) : (State.writeBytes l s).Inv where
  config := by simpa using hs.config
  memory := Memory.wf_writeBytes l hs.memory
  replays := by simpa [State.FeedReplays] using hs.replays
  bounded := by simpa [State.StackBounded] using hs.bounded

/-- What construction answers when it gives a core (R124). -/
theorem construct_eq_next {c : Config} {image : List Byte} {s : State} (h : construct c image = .next s) :
    c.wellFormed = true ∧ s = State.writeBytes (imageCells 0x200 image) { State.reset with cfg := c } := by
  obtain ⟨hc, hi⟩ := exists_construct_eq_next_iff.1 ⟨s, h⟩
  simp only [construct, hc, hi, Bool.true_eq_false, if_false, Host.Outcome.next.injEq] at h
  exact ⟨hc, h.symm⟩

/-- Settles O28: the start of construction meets the invariant, and writing the image keeps it. -/
theorem constructionMeetsTheInvariant : Obligations.ConstructionMeetsTheInvariant := by
  refine ⟨State.reset_withCfg_inv (c := Config.default) rfl, fun c image s h => ?_⟩
  obtain ⟨hc, rfl⟩ := construct_eq_next h
  exact (State.reset_withCfg_inv hc).writeBytes _

/-! ### The reset values -/

theorem State.reset_getV (r : Nibble) : State.reset.getV r = 0 := by
  simp [State.reset, State.getV]

theorem State.reset_isPressed (k : Nibble) : State.reset.isPressed k = false := by
  simp [State.reset, State.isPressed]

theorem State.reset_pixel (j : Fin 2048) : State.reset.pixel j = false := Grid.get_clear j

/-- Settles O29: the scalar fields are read off the definition; registers, keys and cells by index. -/
theorem resetValues : Obligations.ResetValues :=
  ⟨rfl, rfl, rfl, rfl, rfl, rfl, rfl, rfl, rfl, rfl, State.reset_getV, State.reset_isPressed, State.reset_pixel⟩

end Sys2Proof.Machine
end

section
/-! PROOFS. Calls, returns, the key instructions and the clear: one equation per answer of each instruction, and the
frames of a write of `pc` and of a fault. -/

open Sys2Proof.Claims

namespace Sys2Proof.Machine

/-! ### Frames -/

/-- Memory reads the same when its cells and what an unlisted cell reads as are the same. -/
theorem sameMemory_of_eq {s t : State} (hm : t.mem = s.mem) (hc : t.cfg = s.cfg) : SameMemory s t := by
  intro a
  simp [State.readByte, State.readCell, hm, hc]

theorem onlyPc_setPc (s : State) (p : Word) : OnlyPc s (s.setPc p) p :=
  ⟨rfl, sameMemory_of_eq rfl rfl⟩

theorem faultsWith_of_exec {i : Instr} {s : State} {c : FaultCause} (h : exec i s = .next (s.raise c i)) :
    FaultsWith i s c :=
  ⟨_, h, rfl, sameMemory_of_eq rfl rfl⟩

/-! ### Call and return (R73, R75) -/

theorem State.stackFull_iff (s : State) : s.stackFull = true ↔ s.cfg.stackLimit = some s.stack.length := by
  simp [State.stackFull]

theorem exec_call_of_limit_ne {s : State} (nnn : Addr12) (h : s.cfg.stackLimit ≠ some s.stack.length) :
    exec (.call nnn) s = .next ((s.push s.pc).setPc (nnn.setWidth 16)) := by
  rw [Ne, ← State.stackFull_iff] at h
  simp [exec, execCall, h]

theorem exec_call_of_limit_eq {s : State} (nnn : Addr12) (h : s.cfg.stackLimit = some s.stack.length) :
    exec (.call nnn) s = .next (s.raise .stackOverflow (.call nnn)) := by
  rw [← State.stackFull_iff] at h
  simp [exec, execCall, h]

theorem exec_ret_of_append {s : State} {l : List Word} {a : Word} (h : s.stack = l ++ [a]) :
    exec .ret s = .next (State.setPc { s with stack := l } a) := by
  simp [exec, execRet, State.pop, h]

theorem exec_ret_of_nil {s : State} (h : s.stack = []) : exec .ret s = .next (s.raise .stackUnderflow .ret) := by
  simp [exec, execRet, State.pop, h]

/-- Settles O33, by the two answers of the call. -/
theorem callPushesAndJumps : Obligations.CallPushesAndJumps := by
  intro nnn s
  refine ⟨fun h => ⟨_, exec_call_of_limit_ne nnn h, rfl, ?_, rfl, sameMemory_of_eq rfl rfl⟩,
    fun h => faultsWith_of_exec (exec_call_of_limit_eq nnn h)⟩
  have := nnn.isLt
  simp only [State.setPc_pc, BitVec.toNat_setWidth]
  omega

/-- Settles O34, by the two answers of the return. -/
theorem returnPopsIntoPc : Obligations.ReturnPopsIntoPc := by
  intro s
  exact ⟨fun l a h => ⟨_, exec_ret_of_append h, rfl, rfl, rfl, sameMemory_of_eq rfl rfl⟩,
    fun h => faultsWith_of_exec (exec_ret_of_nil h)⟩

/-- Settles O35: the call leaves its return address on top of the caller's stack, and the return pops it. -/
theorem returnUndoesCall : Obligations.ReturnUndoesCall := by
  intro nnn s t u hlimit hcall hstack
  rw [exec_call_of_limit_ne nnn hlimit, Host.Outcome.next.injEq] at hcall
  have top : u.stack = s.stack ++ [s.pc] := by rw [hstack, ← hcall]; rfl
  exact ⟨_, exec_ret_of_append top, rfl, rfl⟩

/-! ### The key skips (R104, R105) -/

theorem exec_skp_of_key {x k : Nibble} {s : State} (h : (s.getV x).toNat = k.val) :
    exec (.skp x) s = .next (s.setPc (if s.isPressed k = true then s.pc + 2 else s.pc)) := by
  simp only [exec, execSkp, nibbleOfByte_some.2 h, skipIf_eq]

theorem exec_sknp_of_key {x k : Nibble} {s : State} (h : (s.getV x).toNat = k.val) :
    exec (.sknp x) s = .next (s.setPc (if s.isPressed k = true then s.pc else s.pc + 2)) := by
  simp only [exec, execSknp, nibbleOfByte_some.2 h, skipIf_eq]
  cases s.isPressed k <;> rfl

theorem exec_skp_of_no_key {x : Nibble} {s : State} (h : 16 ≤ (s.getV x).toNat) :
    exec (.skp x) s = .next (s.raise (.keyOutOfRange (s.getV x)) (.skp x)) := by
  simp only [exec, execSkp, nibbleOfByte_none.2 h]

theorem exec_sknp_of_no_key {x : Nibble} {s : State} (h : 16 ≤ (s.getV x).toNat) :
    exec (.sknp x) s = .next (s.raise (.keyOutOfRange (s.getV x)) (.sknp x)) := by
  simp only [exec, execSknp, nibbleOfByte_none.2 h]

/-- Settles O56, by whether VX names a key. -/
theorem keySkips : Obligations.KeySkips := by
  intro x k s
  exact ⟨fun h => ⟨⟨_, exec_skp_of_key h, onlyPc_setPc _ _⟩, ⟨_, exec_sknp_of_key h, onlyPc_setPc _ _⟩⟩,
    fun h => ⟨faultsWith_of_exec (exec_skp_of_no_key h), faultsWith_of_exec (exec_sknp_of_no_key h)⟩⟩

/-! ### The key-wait (R106) -/

theorem exec_ldVxK_of_release {x k : Nibble} {s : State} (h : s.released = some k) :
    exec (.ldVxK x) s = .next (State.setV { s with released := none } x (BitVec.ofNat 8 k.val)) := by
  simp [exec, execLdVxK, State.takeReleased, h]

theorem exec_ldVxK_of_no_release {x : Nibble} {s : State} (h : s.released = none) :
    exec (.ldVxK x) s = .next (s.setPc (s.pc - 2)) := by
  have same : ({ s with released := none } : State) = s := by rw [← h]
  simp [exec, execLdVxK, State.takeReleased, h, same]

/-- Settles O57, by whether a release is pending. -/
theorem keyWaitConsumesOrRetries : Obligations.KeyWaitConsumesOrRetries := by
  intro x s
  refine ⟨fun k h => ⟨_, exec_ldVxK_of_release h, ?_, rfl, rfl, sameMemory_of_eq rfl rfl, fun r hr => ?_⟩,
    fun h => ⟨_, exec_ldVxK_of_no_release h, onlyPc_setPc _ _⟩⟩
  · have := k.isLt
    rw [State.getV_setV_same, BitVec.toNat_ofNat]
    omega
  · exact State.getV_setV_ne _ hr _

/-! ### The clear (R101) -/

theorem decodeFamily0_eq_cls {w : Word} (h : decodeFamily0 w = .ok .cls) : (nnnField w).toNat = 0x0E0 := by
  unfold decodeFamily0 at h
  split at h
  · assumption
  · simp at h
  · simp at h

theorem decodeZeroN_ne_cls {w : Word} {i : Instr} {e : Unrecognized} (hi : i ≠ .cls) :
    decodeZeroN w i e ≠ .ok .cls := by
  unfold decodeZeroN; split <;> simp [hi]

theorem decodeFamily8_ne_cls (w : Word) : decodeFamily8 w ≠ .ok .cls := by
  unfold decodeFamily8; split <;> simp

theorem decodeFamilyE_ne_cls (w : Word) : decodeFamilyE w ≠ .ok .cls := by
  unfold decodeFamilyE; split <;> simp

theorem decodeFamilyF_ne_cls (w : Word) : decodeFamilyF w ≠ .ok .cls := by
  unfold decodeFamilyF; split <;> simp

/-- Only family 0 decodes to the clear, and only with its 12 low bits 0x0E0 (R55). -/
theorem decode_eq_cls_iff (w : Word) : decode w = .ok .cls ↔ w = 0x00E0 := by
  refine ⟨fun h => ?_, fun h => by rw [h]; decide⟩
  unfold decode at h
  split at h
  · next family =>
    have low := decodeFamily0_eq_cls h
    rw [opField_toNat] at family
    rw [nnnField_toNat] at low
    exact BitVec.eq_of_toNat_eq (show w.toNat = 0x0E0 by omega)
  all_goals simp [decodeZeroN_ne_cls, decodeFamily8_ne_cls, decodeFamilyE_ne_cls, decodeFamilyF_ne_cls] at h

/-- Settles O53: the decoder's one word for the clear, and `ClearScreen` cell by cell. -/
theorem clearScreenClearsAndEmitsOnce : Obligations.ClearScreenClearsAndEmitsOnce :=
  ⟨decode_eq_cls_iff, fun s => ⟨s.clearScreen, rfl, State.pixel_clearScreen s, rfl, rfl, sameMemory_of_eq rfl rfl⟩⟩

end Sys2Proof.Machine
end

section
/-! PROOFS. The top of a cycle: the pacing of the timers, and the drain read event by event, last event first. -/

open Sys2Proof.Claims

namespace Sys2Proof.Machine

/-! ### Pacing (R20, R64) -/

/-- The top of a cycle for which inputs are queued (R63). -/
theorem State.beginCycle_of_inputs {s : State} {c : CycleInput} {rest : List CycleInput} (h : s.inputs = c :: rest) :
    s.beginCycle = State.drain c.events (State.pace { s with inputs := rest, rnd := c.rnd } c.tick) := by
  simp [State.beginCycle, State.nextInput, State.takeInput, h]

/-- One decrement saturates at 0 (R20). -/
theorem decTimer_toNat (t : Byte) : (decTimer t).toNat = t.toNat - 1 := by
  unfold decTimer
  split
  · next h => simp [h]
  · next h =>
    have : t.toNat ≠ 0 := fun e => h (BitVec.eq_of_toNat_eq e)
    bv_omega

/-- Settles O10: the drain leaves the timers and the inputs, so each is as the pacing left it. -/
theorem timersArePacedOncePerTick : Obligations.TimersArePacedOncePerTick := by
  intro s c rest h
  rw [State.beginCycle_of_inputs h]
  refine ⟨fun tick => ?_, fun tick => ?_, by simp, by simp, by simp⟩
  · simp [State.pace, tick, decTimer_toNat]
  · simp [State.pace, tick]

/-! ### The drain (R22, R65) -/

/-- An event that is not about a key leaves its press state. -/
theorem State.isPressed_applyEvent_of_not_about {e : KeyEvent} {k : Nibble} (h : isAbout k e = false) (s : State) :
    (s.applyEvent e).isPressed k = s.isPressed k := by
  rw [State.isPressed_applyEvent]
  cases e <;> simp_all [isAbout]

theorem State.isPressed_drain_of_not_about {l : List KeyEvent} {k : Nibble} (h : l.any (isAbout k) = false)
    (s : State) : (State.drain l s).isPressed k = s.isPressed k := by
  induction l generalizing s with
  | nil => rfl
  | cons e rest ih =>
    rw [List.any_cons, Bool.or_eq_false_iff] at h
    rw [State.drain, ih h.2, State.isPressed_applyEvent_of_not_about h.1]

/-- The last event about a key decides its press state. -/
theorem State.isPressed_drain_last (pre : List KeyEvent) (e : KeyEvent) {post : List KeyEvent} {k : Nibble}
    (h : post.any (isAbout k) = false) (s : State) :
    (State.drain (pre ++ e :: post) s).isPressed k = ((State.drain pre s).applyEvent e).isPressed k := by
  rw [State.drain_append, State.drain, State.isPressed_drain_of_not_about h]

theorem State.released_drain_of_no_keyUp {l : List KeyEvent} (h : l.any isKeyUp = false) (s : State) :
    (State.drain l s).released = s.released := by
  induction l generalizing s with
  | nil => rfl
  | cons e rest ih =>
    rw [List.any_cons, Bool.or_eq_false_iff] at h
    rw [State.drain, ih h.2]
    cases e with
    | keyUp k => simp [isKeyUp] at h
    | keyDown k => rfl
    | stop => rfl

/-- The last release is the one the slot holds. -/
theorem State.released_drain_last (pre : List KeyEvent) (k : Nibble) {post : List KeyEvent}
    (h : post.any isKeyUp = false) (s : State) : (State.drain (pre ++ .keyUp k :: post) s).released = some k := by
  rw [State.drain_append, State.drain, State.released_drain_of_no_keyUp h]
  rfl

/-- The latch is set by a Stop event and cleared by none. -/
theorem State.stop_drain_iff (l : List KeyEvent) (s : State) :
    (State.drain l s).stop = true ↔ s.stop = true ∨ KeyEvent.stop ∈ l := by
  induction l generalizing s with
  | nil => simp [State.drain]
  | cons e rest ih =>
    rw [State.drain, ih]
    cases e <;> simp [State.applyEvent]

/-- Settles O11: the drain's clauses, over the state the pacing leaves, whose keypad is that of the start. -/
theorem drainAppliesEventsInOrder : Obligations.DrainAppliesEventsInOrder := by
  intro s c rest k h
  rw [State.beginCycle_of_inputs h]
  refine ⟨fun pre post events last => ?_, fun pre post events last => ?_, fun silent => ?_,
    fun pre post events last => ?_, fun silent => ?_, ?_⟩
  · rw [events, State.isPressed_drain_last pre _ last, State.isPressed_applyEvent, if_pos rfl]
  · rw [events, State.isPressed_drain_last pre _ last, State.isPressed_applyEvent]
    simp
  · rw [State.isPressed_drain_of_not_about silent, State.pace_isPressed]
    rfl
  · rw [events, State.released_drain_last pre k last]
  · rw [State.released_drain_of_no_keyUp silent, State.pace_released]
  · rw [State.stop_drain_iff, State.pace_stop]

end Sys2Proof.Machine
end

section
/-! PROOFS. Who writes what: for each component of the state, the instructions whose `Effect` can change it. -/

open Sys2Proof.Claims

namespace Sys2Proof.Machine

section
variable {i : Instr} {s t : State}

/-- No instruction writes the inputs of a cycle, the press states or the latch (R23, R29). -/
theorem Effect.environment_eq (h : Effect i s t) :
    t.inputs = s.inputs ∧ t.rnd = s.rnd ∧ t.draws = s.draws ∧ t.keys = s.keys ∧ t.stop = s.stop := by
  cases h <;> simp

theorem Effect.stack_writer (h : Effect i s t) (ne : t.stack ≠ s.stack) : i = .ret ∨ ∃ nnn, i = .call nnn := by
  cases h with
  | returns l a hi hs => exact .inl hi
  | calls nnn hi hl => exact .inr ⟨nnn, hi⟩
  | _ => simp at ne

theorem Effect.memory_writer (h : Effect i s t) (ne : ¬ SameMemory s t) : ∃ x, i = .ldB x ∨ i = .store x := by
  have changed : t.mem ≠ s.mem := fun same => ne (sameMemory_of_eq same h.cfg_eq)
  cases h with
  | digits x hi => exact ⟨x, .inl hi⟩
  | stores x hi => exact ⟨x, .inr hi⟩
  | _ => simp at changed

/-- A block transfer changes I only under the quirk (R99, R100). -/
theorem increment_of_indexAfterTransfer_ne {x : Nibble} (ne : indexAfterTransfer s x ≠ s.I) :
    s.cfg.incrementIndexOnBlockTransfer = true := by
  by_contra off
  simp [indexAfterTransfer, off] at ne

theorem Effect.index_writer (h : Effect i s t) (ne : t.I ≠ s.I) :
    (∃ nnn, i = .ldI nnn) ∨ ∃ x, i = .addI x ∨ i = .ldF x ∨
      ((i = .store x ∨ i = .load x) ∧ s.cfg.incrementIndexOnBlockTransfer = true) := by
  cases h with
  | index w hi =>
    rcases hi with hi | ⟨x, hi⟩
    · exact .inl hi
    · exact .inr ⟨x, .inr (.inl hi)⟩
  | indexAdd x hi => exact .inr ⟨x, .inl hi⟩
  | stores x hi => exact .inr ⟨x, .inr (.inr ⟨.inl hi, increment_of_indexAfterTransfer_ne ne⟩)⟩
  | loads x hi => exact .inr ⟨x, .inr (.inr ⟨.inr hi, increment_of_indexAfterTransfer_ne ne⟩)⟩
  | _ => simp at ne

theorem Effect.delay_writer (h : Effect i s t) (ne : t.DT ≠ s.DT) : ∃ x, i = .ldDtVx x := by
  cases h with
  | delay x hi => exact ⟨x, hi⟩
  | _ => simp at ne

theorem Effect.sound_writer (h : Effect i s t) (ne : t.ST ≠ s.ST) : ∃ x, i = .ldStVx x := by
  cases h with
  | sound x hi => exact ⟨x, hi⟩
  | _ => simp at ne

theorem Effect.released_writer (h : Effect i s t) (ne : t.released ≠ s.released) : ∃ x, i = .ldVxK x := by
  cases h with
  | key x k hi hr => exact ⟨x, hi⟩
  | _ => simp at ne

theorem Effect.display_writer (h : Effect i s t) (ne : t.fb ≠ s.fb ∨ t.feed ≠ s.feed) :
    i = .cls ∨ ∃ x y n, i = .drw x y n := by
  cases h with
  | clears hi => exact .inl hi
  | draws x y n hi => exact .inr ⟨x, y, n, hi⟩
  | _ => simp at ne

end

/-- Settles O23: the effect of the instruction, component by component. -/
theorem componentsHaveOnlyTheirNamedWriters : Obligations.ComponentsHaveOnlyTheirNamedWriters := by
  intro i s t h
  have effect := effect_of_exec h
  obtain ⟨inputs, rnd, draws, keys, stop⟩ := effect.environment_eq
  exact ⟨effect.cfg_eq, inputs, rnd, draws, keys, stop, effect.stack_writer, effect.memory_writer, effect.index_writer,
    effect.delay_writer, effect.sound_writer, effect.released_writer, effect.display_writer⟩

/-! ### The flag (R15) -/

/-- FX1E writes VF only with `flag_index_overflow` (R96). -/
theorem State.overflow_of_flagIndex_ne {s : State} (ne : s.flagIndex.getV vf ≠ s.getV vf) :
    s.cfg.flagIndexOverflow = true := by
  by_contra off
  simp [State.flagIndex, off] at ne

/-- A block load that reaches VF names it (R100). -/
theorem State.last_of_loadRegs_vf_ne {s : State} {x : Nibble}
    (ne : (State.loadRegs (regsUpTo x) s).getV vf ≠ s.getV vf) : x = vf := by
  have reached : vf ∈ regsUpTo x := by
    by_contra out
    exact ne (by rw [State.getV_loadRegs, if_neg out])
  exact le_antisymm (Fin.le_last x) (mem_regsUpTo.1 reached)

/-- A write of one register that changes VF is a write of VF. -/
theorem State.eq_vf_of_setV_ne {s : State} {x : Nibble} {b : Byte} (ne : (s.setV x b).getV vf ≠ s.getV vf) :
    x = vf := by
  by_contra other
  exact ne (State.getV_setV_ne s (Ne.symm other) b)

/-- Settles O24: only five effects write a register, and each says which instruction it is of. -/
theorem flagHasOnlyItsNamedWriters : Obligations.FlagHasOnlyItsNamedWriters := by
  intro i s t h ne
  cases effect_of_exec h with
  | register x b hi =>
    rcases hi (State.eq_vf_of_setV_ne ne) with named | named | named
    · exact .inl named
    · exact .inr (.inl named)
    · exact .inr (.inr (.inl named))
  | key x k hi hr =>
    have named : x = vf := State.eq_vf_of_setV_ne (s := { s with released := none }) ne
    simp [hi, named]
  | loads x hi =>
    have named : x = vf := State.last_of_loadRegs_vf_ne ne
    simp [hi, named]
  | flagged x y r f hi => rcases hi with hi | hi | hi | hi | hi <;> simp [hi]
  | draws x y n hi => simp [hi]
  | indexAdd x hi =>
    have quirk : s.cfg.flagIndexOverflow = true :=
      State.overflow_of_flagIndex_ne (s := s.setI (s.I + (s.getV x).setWidth 16)) ne
    simp [hi, quirk]
  | returns l a hi hs => exact absurd rfl ne
  | _ => simp at ne

end Sys2Proof.Machine
end

section
/-! PROOFS. The Stop latch, the sound timer and the display feed are written and never read: a cycle from a state with
other values there is the same cycle, and it moves them as the original cycle moves its own. -/

namespace Sys2Proof.Machine

/-! ### The components that no cycle reads -/

/-- The components that the core writes and never reads (R19, R22, R28). -/
structure Unread where
  stop : Bool
  ST : Byte
  feed : List DisplayEvent

def State.unread (s : State) : Unread := ⟨s.stop, s.ST, s.feed⟩

def State.setUnread (s : State) (u : Unread) : State := { s with stop := u.stop, ST := u.ST, feed := u.feed }

/-- All that a part of a cycle may do to the unread components: set the latch, map the sound timer, append events. -/
structure Unread.Move where
  latch : Bool
  timer : Byte → Byte
  emits : List DisplayEvent

def Unread.Move.apply (m : Unread.Move) (u : Unread) : Unread := ⟨m.latch || u.stop, m.timer u.ST, u.feed ++ m.emits⟩

def Unread.Move.stay : Unread.Move := ⟨false, id, []⟩

def Unread.Move.andThen (m n : Unread.Move) : Unread.Move :=
  ⟨n.latch || m.latch, n.timer ∘ m.timer, m.emits ++ n.emits⟩

@[simp] theorem Unread.Move.stay_apply (u : Unread) : Unread.Move.stay.apply u = u := by
  simp [Unread.Move.apply, Unread.Move.stay]

@[simp] theorem Unread.Move.andThen_apply (m n : Unread.Move) (u : Unread) :
    (m.andThen n).apply u = n.apply (m.apply u) := by
  simp [Unread.Move.apply, Unread.Move.andThen, Bool.or_assoc]

/-! ### Operations that do not read them -/

/-- From `s`, the operation `f` gives the same state whatever the unread components hold, and moves those alike. -/
def BlindAt (f : State → State) (s : State) : Prop :=
  ∃ m : Unread.Move, ∀ u, f (s.setUnread u) = (f s).setUnread (m.apply u)

theorem BlindAt.of_commutes {f : State → State} {s : State} (h : ∀ u, f (s.setUnread u) = (f s).setUnread u) :
    BlindAt f s :=
  ⟨.stay, fun u => by rw [h, Unread.Move.stay_apply]⟩

theorem BlindAt.comp {f g : State → State} {s : State} (hg : BlindAt g (f s)) (hf : BlindAt f s) :
    BlindAt (fun u => g (f u)) s := by
  obtain ⟨m, hm⟩ := hf
  obtain ⟨n, hn⟩ := hg
  exact ⟨m.andThen n, fun u => by simp only [hm, hn, Unread.Move.andThen_apply]⟩

theorem blindAt_writeCell (a : Nat) (b : Byte) (s : State) : BlindAt (fun u => u.writeCell a b) s := by
  refine .of_commutes fun u => ?_
  by_cases same : b = background s.cfg a
  · simp [State.writeCell, State.setUnread, same]
  · simp [State.writeCell, State.setUnread, same]

theorem blindAt_writeBytes (l : List (Nat × Byte)) (s : State) : BlindAt (State.writeBytes l) s := by
  induction l generalizing s with
  | nil => exact .of_commutes fun _ => rfl
  | cons p rest ih => exact (ih _).comp (blindAt_writeCell _ _ s)

theorem blindAt_loadRegs (l : List Nibble) (s : State) : BlindAt (State.loadRegs l) s := by
  induction l generalizing s with
  | nil => exact .of_commutes fun _ => rfl
  | cons k rest ih =>
    exact (ih _).comp (f := fun u => u.setV k (u.readByte (u.I.toNat + k.val))) (.of_commutes fun _ => rfl)

theorem blindAt_flagIndex (s : State) : BlindAt State.flagIndex s := by
  refine .of_commutes fun u => ?_
  rcases s.flagIndex_cases with ⟨on, above, -⟩ | ⟨on, below, clears, -⟩ | ⟨on, below, keeps, -⟩ | ⟨off, -⟩
  · simp [State.flagIndex, on, above, State.setUnread, State.setV]
  · simp [State.flagIndex, on, below, clears, State.setUnread, State.setV]
  · simp [State.flagIndex, on, below, keeps, State.setUnread]
  · simp [State.flagIndex, off, State.setUnread]

theorem blindAt_setI (w : Word) (s : State) : BlindAt (fun u => u.setI w) s := .of_commutes fun _ => rfl

/-- A write of the sound timer forgets what it held. -/
theorem blindAt_setST (b : Byte) (s : State) : BlindAt (fun u => u.setST b) s :=
  ⟨⟨false, fun _ => b, []⟩, fun u => by simp [State.setST, State.setUnread, Unread.Move.apply]⟩

/-- A toggle emits the new value of its cell, which it reads in the framebuffer (R26). -/
theorem blindAt_toggle (j : Fin 2048) (s : State) : BlindAt (fun u => u.toggle j) s :=
  ⟨⟨false, id, [.set j (!s.pixel j)]⟩, fun _ => rfl⟩

theorem blindAt_plot (l : List (Fin 2048)) (s : State) : BlindAt (State.plot l) s := by
  induction l generalizing s with
  | nil => exact .of_commutes fun _ => rfl
  | cons j rest ih => exact (ih _).comp (blindAt_toggle j s)

theorem State.collides_setUnread (l : List (Fin 2048)) (s : State) (u : Unread) :
    State.collides l (s.setUnread u) = State.collides l s := by
  induction l generalizing s u with
  | nil => rfl
  | cons j rest ih =>
    obtain ⟨m, hm⟩ := blindAt_toggle j s
    simp only [State.collides, hm, ih]
    rfl

/-- The cells of a draw and its collision come from the registers, memory and the framebuffer (R102). -/
theorem blindAt_draw (x y n : Nibble) (s : State) : BlindAt (fun u =>
    (State.plot (drawCells x y n u) u).setV vf (boolToByte (State.collides (drawCells x y n u) u))) s := by
  obtain ⟨m, hm⟩ := blindAt_plot (drawCells x y n s) s
  refine ⟨m, fun u => ?_⟩
  have cells : drawCells x y n (s.setUnread u) = drawCells x y n s := rfl
  simp only [cells, hm, State.collides_setUnread]
  rfl

/-- A Stop event sets the latch; every other event is about the keypad (R22). -/
theorem blindAt_applyEvent (e : KeyEvent) (s : State) : BlindAt (fun u => u.applyEvent e) s := by
  cases e with
  | keyDown k => exact .of_commutes fun _ => rfl
  | keyUp k => exact .of_commutes fun _ => rfl
  | stop => exact ⟨⟨true, id, []⟩, fun u => by simp [State.applyEvent, State.setUnread, Unread.Move.apply]⟩

theorem blindAt_drain (l : List KeyEvent) (s : State) : BlindAt (State.drain l) s := by
  induction l generalizing s with
  | nil => exact .of_commutes fun _ => rfl
  | cons e rest ih => exact (ih _).comp (blindAt_applyEvent e s)

/-- A tick decrements the sound timer, whatever it holds (R20). -/
theorem blindAt_pace (tick : Bool) (s : State) : BlindAt (fun u => u.pace tick) s := by
  cases tick with
  | false => exact .of_commutes fun _ => rfl
  | true => exact ⟨⟨false, decTimer, []⟩, fun u => by simp [State.pace, State.setUnread, Unread.Move.apply]⟩

theorem blindAt_takeInput (s : State) : BlindAt State.takeInput s := by
  refine .of_commutes fun u => ?_
  cases queue : s.inputs with
  | nil => simp [State.takeInput, State.setUnread, queue]
  | cons c rest => simp [State.takeInput, State.setUnread, queue]

theorem blindAt_beginCycle (s : State) : BlindAt State.beginCycle s :=
  (blindAt_drain s.nextInput.events _).comp ((blindAt_pace s.nextInput.tick _).comp (blindAt_takeInput s))

/-! ### Instructions -/

theorem withRange_of_bad {addrs : List Nat} {i : Instr} {effect s : State} {a : Nat}
    (h : firstOutOfRange s.cfg addrs = some a) :
    withRange addrs i effect s = .next (s.raise (.memoryOutOfRange a) i) := by
  simp [withRange, h]

theorem exec_ldF_of_digit {x d : Nibble} {s : State} (h : nibbleOfByte (s.getV x) = some d) :
    exec (.ldF x) s = .next (s.setI (glyphAddr s.cfg d)) := by
  simp only [exec, execLdF, h]

theorem exec_ldF_of_no_digit {x : Nibble} {s : State} (h : nibbleOfByte (s.getV x) = none) :
    exec (.ldF x) s = .next (s.raise (.fontDigitOutOfRange (s.getV x)) (.ldF x)) := by
  simp only [exec, execLdF, h]

/-- From `s`, the meaning `f` answers the same next state whatever the unread components hold, and moves those alike. -/
def AnswersBlindAt (f : State → Result) (s : State) : Prop :=
  ∃ (t : State) (m : Unread.Move), ∀ u, f (s.setUnread u) = .next (t.setUnread (m.apply u))

/-- A meaning that is an operation on the state. -/
theorem AnswersBlindAt.next {g : State → State} {s : State} (h : BlindAt g s) :
    AnswersBlindAt (fun u => .next (g u)) s := by
  obtain ⟨m, hm⟩ := h
  exact ⟨g s, m, fun u => by simp only [hm]⟩

/-- A meaning that leaves the unread components alone. -/
theorem AnswersBlindAt.of_commutes {f : State → Result} {s t : State}
    (h : ∀ u, f (s.setUnread u) = .next (t.setUnread u)) : AnswersBlindAt f s :=
  ⟨t, .stay, fun u => by rw [h, Unread.Move.stay_apply]⟩

theorem AnswersBlindAt.comp {f : State → State} {g : State → Result} {s : State} (hg : AnswersBlindAt g (f s))
    (hf : BlindAt f s) : AnswersBlindAt (fun u => g (f u)) s := by
  obtain ⟨m, hm⟩ := hf
  obtain ⟨t, n, hn⟩ := hg
  exact ⟨t, m.andThen n, fun u => by simp only [hm, hn, Unread.Move.andThen_apply]⟩

theorem AnswersBlindAt.congr {f g : State → Result} {s : State} (hg : AnswersBlindAt g s)
    (h : ∀ u, f (s.setUnread u) = g (s.setUnread u)) : AnswersBlindAt f s := by
  obtain ⟨t, m, hm⟩ := hg
  exact ⟨t, m, fun u => by rw [h, hm]⟩

/-- A range check reads the configuration and the addresses only. -/
theorem AnswersBlindAt.withRange {addrs : State → List Nat} {i : Instr} {effect : State → State} {s : State}
    (same : ∀ u, addrs (s.setUnread u) = addrs s) (h : BlindAt effect s) :
    AnswersBlindAt (fun u => withRange (addrs u) i (effect u) u) s := by
  obtain ⟨m, hm⟩ := h
  rcases withRange_cases (addrs s) i (effect s) s with ⟨ok, -⟩ | ⟨a, bad, -⟩
  · exact ⟨effect s, m, fun u => by simp only [← hm, same, withRange_ok (s := s.setUnread u) ok]⟩
  · refine .of_commutes (t := s.raise (.memoryOutOfRange a) i) fun u => ?_
    simp only [same, withRange_of_bad (s := s.setUnread u) bad]
    rfl

theorem AnswersBlindAt.skipIf (c : State → Bool) {s : State} (same : ∀ u, c (s.setUnread u) = c s) :
    AnswersBlindAt (fun u => skipIf (c u) u) s :=
  .of_commutes (t := s.setPc (if c s then s.pc + 2 else s.pc)) fun u => by rw [skipIf_eq, same]; rfl

/-- No instruction reads the latch, the sound timer or the feed. -/
theorem answersBlindAt_exec (i : Instr) (s : State) : AnswersBlindAt (exec i) s := by
  cases i with
  | cls => exact ⟨s.clearScreen, ⟨false, id, [.clear]⟩, fun _ => rfl⟩
  | ret =>
    rcases List.eq_nil_or_concat s.stack with empty | ⟨l, a, top⟩
    · exact .of_commutes (t := s.raise .stackUnderflow .ret) fun u => exec_ret_of_nil empty
    · rw [List.concat_eq_append] at top
      exact .of_commutes (t := State.setPc { s with stack := l } a) fun u => exec_ret_of_append top
  | call nnn =>
    by_cases full : s.cfg.stackLimit = some s.stack.length
    · exact .of_commutes (t := s.raise .stackOverflow (.call nnn)) fun u => exec_call_of_limit_eq nnn full
    · exact .of_commutes (t := (s.push s.pc).setPc (nnn.setWidth 16)) fun u => exec_call_of_limit_ne nnn full
  | seImm x nn => exact .skipIf (fun u => u.getV x == nn) fun _ => rfl
  | sneImm x nn => exact .skipIf (fun u => u.getV x != nn) fun _ => rfl
  | seReg x y => exact .skipIf (fun u => u.getV x == u.getV y) fun _ => rfl
  | sneReg x y => exact .skipIf (fun u => u.getV x != u.getV y) fun _ => rfl
  | skp x =>
    cases key : nibbleOfByte (s.getV x) with
    | none =>
      exact .of_commutes (t := s.raise (.keyOutOfRange (s.getV x)) (.skp x))
        fun u => exec_skp_of_no_key (nibbleOfByte_none.1 key)
    | some k =>
      exact .of_commutes (t := s.setPc (if s.isPressed k = true then s.pc + 2 else s.pc))
        fun u => exec_skp_of_key (nibbleOfByte_some.1 key)
  | sknp x =>
    cases key : nibbleOfByte (s.getV x) with
    | none =>
      exact .of_commutes (t := s.raise (.keyOutOfRange (s.getV x)) (.sknp x))
        fun u => exec_sknp_of_no_key (nibbleOfByte_none.1 key)
    | some k =>
      exact .of_commutes (t := s.setPc (if s.isPressed k = true then s.pc else s.pc + 2))
        fun u => exec_sknp_of_key (nibbleOfByte_some.1 key)
  | ldVxK x =>
    cases slot : s.released with
    | none => exact .of_commutes (t := s.setPc (s.pc - 2)) fun u => exec_ldVxK_of_no_release slot
    | some k =>
      exact .of_commutes (t := State.setV { s with released := none } x (BitVec.ofNat 8 k.val))
        fun u => exec_ldVxK_of_release slot
  | ldStVx x => exact .next (blindAt_setST (s.getV x) s)
  | ldF x =>
    cases digit : nibbleOfByte (s.getV x) with
    | none =>
      exact .of_commutes (t := s.raise (.fontDigitOutOfRange (s.getV x)) (.ldF x))
        fun u => exec_ldF_of_no_digit digit
    | some d => exact .of_commutes (t := s.setI (glyphAddr s.cfg d)) fun u => exec_ldF_of_digit digit
  | addI x => exact .next ((blindAt_flagIndex _).comp (blindAt_setI (s.I + (s.getV x).setWidth 16) s))
  | drw x y n => exact .withRange (fun _ => rfl) (blindAt_draw x y n s)
  | ldB x => exact .withRange (fun _ => rfl) (blindAt_writeBytes (bcdCells s (s.getV x)) s)
  | store x =>
    exact .withRange (fun _ => rfl)
      ((blindAt_setI (indexAfterTransfer s x) _).comp (blindAt_writeBytes (storeCells s x) s))
  | load x =>
    exact .withRange (fun _ => rfl) ((blindAt_setI (indexAfterTransfer s x) _).comp (blindAt_loadRegs (regsUpTo x) s))
  | _ => exact .next (.of_commutes fun _ => rfl)

/-! ### Cycles -/

theorem answersBlindAt_runWord (w : Word) (s : State) : AnswersBlindAt (runWord w) s := by
  cases decoded : decode w with
  | error e =>
    have fault : runWord w = fun u => .next (u.takeFault .unrecognizedOpcode (some w) u.pc) :=
      funext fun u => by simp only [runWord, decoded]
    rw [fault]
    exact .next (.of_commutes fun _ => rfl)
  | ok i =>
    have instruction : runWord w = fun u => exec i u.advance := funext fun u => by simp only [runWord, decoded]
    rw [instruction]
    exact (answersBlindAt_exec i s.advance).comp (f := State.advance) (.of_commutes fun _ => rfl)

/-- A cycle of a running core reads none of the unread components: not at its top, not in the fetch, not in the
instruction. -/
theorem answersBlindAt_step {s : State} (running : s.fault = none) : AnswersBlindAt step s := by
  cases fetched : s.fetchWord with
  | error c =>
    have faulted : BlindAt (fun u => u.beginCycle.takeFault c none s.pc) s :=
      BlindAt.comp (g := fun u => u.takeFault c none s.pc) (.of_commutes fun _ => rfl) (blindAt_beginCycle s)
    refine (AnswersBlindAt.next faulted).congr fun u => ?_
    have same : (s.setUnread u).fetchWord = .error c := fetched
    rw [step_of_running (s := s.setUnread u) running, same]
    rfl
  | ok w =>
    have ran : AnswersBlindAt (fun u => runWord w u.beginCycle) s :=
      (answersBlindAt_runWord w _).comp (blindAt_beginCycle s)
    refine ran.congr fun u => ?_
    have same : (s.setUnread u).fetchWord = .ok w := fetched
    rw [step_of_running (s := s.setUnread u) running, same]

/-- What a cycle that answers `t` did to the unread components, and would have done to others. -/
theorem step_setUnread {s t : State} (h : step s = .next t) : ∃ m : Unread.Move,
    t.stop = (m.latch || s.stop) ∧ t.ST = m.timer s.ST ∧ t.feed = s.feed ++ m.emits ∧
      ∀ u, step (s.setUnread u) = .next (t.setUnread (m.apply u)) := by
  obtain ⟨t', m, hm⟩ := answersBlindAt_step (step_cases h).1
  obtain rfl : t = t'.setUnread (m.apply s.unread) := Host.Outcome.next.inj (h.symm.trans (hm s.unread))
  exact ⟨m, rfl, rfl, rfl, hm⟩

/-- Settles O20: a cycle at most sets the latch, so a latch that is set stays set. -/
theorem stopLatchOnlyLatches : Obligations.StopLatchOnlyLatches := by
  intro s t h
  obtain ⟨m, -, timer, feed, cycle⟩ := step_setUnread h
  simpa only [State.setUnread, Unread.Move.apply, Bool.or_true, ← timer, ← feed] using cycle ⟨true, s.ST, s.feed⟩

/-- Settles O21: the new value of the sound timer is what the cycle's move makes of the other one. -/
theorem nothingReadsTheSoundTimer : Obligations.NothingReadsTheSoundTimer := by
  intro s t v h
  obtain ⟨m, latch, -, feed, cycle⟩ := step_setUnread h
  refine ⟨m.timer v, ?_⟩
  simpa only [State.setUnread, Unread.Move.apply, ← latch, ← feed] using cycle ⟨s.stop, v, s.feed⟩

/-- Settles O22: the events appended are those of the cycle's move. -/
theorem feedIsAppendOnlyAndNeverRead : Obligations.FeedIsAppendOnlyAndNeverRead := by
  intro s t h
  obtain ⟨m, latch, timer, feed, cycle⟩ := step_setUnread h
  refine ⟨m.emits, feed, fun f => ?_⟩
  simpa only [State.setUnread, Unread.Move.apply, ← latch, ← timer] using cycle ⟨s.stop, s.ST, f⟩

end Sys2Proof.Machine
end

section
/-! PROOFS. DXYN against the sprite as the statement draws it: which cells are covered, in which order they are toggled,
and what plotting them does to the display. -/

open Sys2Proof.Claims

namespace Sys2Proof.Machine

/-! ### The range check -/

theorem accessible_of_blockInRange {s : State} {n : Nat} (h : BlockInRange s n) :
    ∀ a ∈ blockAddrs s.I n, accessible s.cfg a = true := by
  intro a ha
  obtain ⟨k, hk, rfl⟩ := mem_blockAddrs.1 ha
  rcases h with inside | wraps
  · have : s.I.toNat + k < 4096 := by omega
    simp [accessible, this]
  · simp [accessible, wraps]

/-- A draw whose rows can be read answers its effect (R102). -/
theorem exec_drw_of_inRange {x y n : Nibble} {s : State}
    (h : BlockInRange s (visibleRows s y n) ∨ visibleRows s y n = 0) :
    exec (.drw x y n) s = .next
      ((State.plot (drawCells x y n s) s).setV vf (boolToByte (State.collides (drawCells x y n s) s))) := by
  refine withRange_ok fun a ha => ?_
  rcases h with inRange | nothing
  · exact accessible_of_blockInRange inRange a ha
  · have drawn : drawnRows n (startRow (s.getV y)) = 0 := nothing
    simp [spriteAddrs, blockAddrs, drawn] at ha

/-! ### The covered cells -/

theorem cellIndex_inj {a b c d : Nat} (ha : a < 64) (hb : b < 32) (hc : c < 64) (hd : d < 32)
    (h : cellIndex a b = cellIndex c d) : a = c ∧ b = d := by
  have e := congrArg Fin.val h
  rw [cellIndex_val ha hb, cellIndex_val hc hd] at e
  omega

theorem startY_lt (s : State) (y : Nibble) : startY s y < 32 := Nat.mod_lt _ (by decide)

/-- The cells of a draw, by the sprite's row and column (R102). -/
theorem mem_drawCells_iff {x y n : Nibble} {s : State} {j : Fin 2048} :
    j ∈ drawCells x y n s ↔ ∃ r c, r < visibleRows s y n ∧ c < 8 ∧ startX s x + c < 64 ∧ spriteBit s r c ∧
      j = cellIndex (startX s x + c) (startY s y + r) := mem_drawCells

/-- The cells of a draw are the covered ones. -/
theorem mem_drawCells_iff_covers {x y n : Nibble} {s : State} {j : Fin 2048} :
    j ∈ drawCells x y n s ↔ ∃ col row, Covers s x y n col row ∧ j = cellIndex col row := by
  rw [mem_drawCells_iff]
  constructor
  · rintro ⟨r, c, hr, hc, column, bit, rfl⟩
    rw [visibleRows, Nat.lt_min] at hr
    refine ⟨startX s x + c, startY s y + r, ⟨?_, ?_, column, ?_, ?_, ?_, ?_⟩, rfl⟩
    any_goals omega
    simpa using bit
  · rintro ⟨col, row, ⟨left, right, column, top, bottom, line, bit⟩, rfl⟩
    refine ⟨row - startY s y, col - startX s x, ?_, ?_, ?_, bit, ?_⟩
    · rw [visibleRows, Nat.lt_min]
      omega
    · omega
    · omega
    · rw [Nat.add_sub_cancel' left, Nat.add_sub_cancel' top]

theorem cellIndex_mem_drawCells {x y n : Nibble} {s : State} {col row : Nat} (hc : col < 64) (hr : row < 32) :
    cellIndex col row ∈ drawCells x y n s ↔ Covers s x y n col row := by
  rw [mem_drawCells_iff_covers]
  constructor
  · rintro ⟨col', row', covers, same⟩
    have ⟨_, _, hc', _, _, hr', _⟩ := covers
    obtain ⟨rfl, rfl⟩ := cellIndex_inj hc hr hc' hr' same
    exact covers
  · exact fun covers => ⟨col, row, covers, rfl⟩

/-! ### The order of the cells -/

theorem rowCells_eq_map_filter (x0 y : Nat) (b : Byte) : rowCells x0 y b =
    ((List.range 8).filter fun c => decide (x0 + c < 64) && b.getLsbD (7 - c)).map fun c => cellIndex (x0 + c) y := by
  rw [rowCells, ← List.filterMap_eq_map, List.filterMap_filter]
  simp

theorem spriteCells_map_range (x0 y n : Nat) (f : Nat → Byte) :
    spriteCells x0 y ((List.range n).map f) = (List.range n).flatMap fun r => rowCells x0 (y + r) (f r) := by
  induction n generalizing y f with
  | zero => rfl
  | succ n ih =>
    have rest := ih (y + 1) (f ∘ Nat.succ)
    simp only [List.range_succ_eq_map, List.map_cons, List.flatMap_cons, List.map_map, List.flatMap_map, spriteCells]
    rw [rest]
    simp [Nat.add_assoc, Nat.add_comm 1]

/-- The events of a draw are one `Set` per cell, in the order the cells are toggled (R102). -/
theorem drawEvents_eq_map (x y n : Nibble) (s : State) :
    drawEvents s x y n = (drawCells x y n s).map fun j => .set j (!s.pixel j) := by
  have cells : drawCells x y n s = (List.range (visibleRows s y n)).flatMap fun r =>
      rowCells (startX s x) (startY s y + r) (s.readByte (s.I.toNat + r)) := by
    rw [← spriteCells_map_range (f := fun r => s.readByte (s.I.toNat + r))]
    simp only [drawCells, spriteAddrs, blockAddrs, List.map_map]
    rfl
  simp only [cells, drawEvents, List.map_flatMap, rowCells_eq_map_filter, List.map_map]
  rfl

/-- Settles O54: `plot` flips the covered cells and emits their events, and the collision is read before the flips. -/
theorem drawXorsTheSprite : Obligations.DrawXorsTheSprite := by
  intro x y n s h
  have distinct := nodup_drawCells x y n s
  refine ⟨_, exec_drw_of_inRange h, fun col row hc hr => ⟨fun covered => ?_, fun spared => ?_⟩, ?_, ?_, ?_, ?_, ?_, ?_⟩
  · rw [State.setV_pixel, State.pixel_plot distinct, if_pos ((cellIndex_mem_drawCells hc hr).2 covered)]
  · rw [State.setV_pixel, State.pixel_plot distinct, if_neg (mt (cellIndex_mem_drawCells hc hr).1 spared)]
  · rw [State.setV_feed, State.feed_plot distinct, drawEvents_eq_map]
  · rintro ⟨col, row, covered, lit⟩
    have collision : State.collides (drawCells x y n s) s = true :=
      (State.collides_iff distinct s).2 ⟨_, mem_drawCells_iff_covers.2 ⟨col, row, covered, rfl⟩, lit⟩
    rw [collision]
    exact State.getV_setV_same _ _ _
  · intro clear
    have dark : State.collides (drawCells x y n s) s = false := by
      rw [← Bool.not_eq_true, State.collides_iff distinct]
      rintro ⟨j, hj, lit⟩
      obtain ⟨col, row, covered, rfl⟩ := mem_drawCells_iff_covers.1 hj
      simp [clear col row covered] at lit
    rw [dark]
    exact State.getV_setV_same _ _ _
  · intro r hr
    rw [State.getV_setV_ne _ hr, State.plot_getV]
  · rw [State.mk.injEq]
    simp
  · exact sameMemory_of_eq (by simp) (by simp)

end Sys2Proof.Machine
end

section
/-! PROOFS. Memory: the range rule of a byte read, the big-endian word read, FX55 followed by a fetch, and the canonical
form of the list of cells. -/

open Sys2Proof.Claims

namespace Sys2Proof.Machine

/-- Settles O25: the effects that write memory do so by `writeCell` at a cell below 4096, which keeps the form. -/
theorem stepKeepsMemoryCanonical : Obligations.StepKeepsMemoryCanonical := by
  intro s t hs h
  exact step_memoryCanonical h hs

/-! ### The range rule (R37) -/

theorem accessible_of_lt {c : Config} {a : Nat} (h : a < 4096) : accessible c a = true := by
  simp [accessible, h]

theorem accessible_of_wrap {c : Config} (h : c.memOob = .wrap) (a : Nat) : accessible c a = true := by
  simp [accessible, h]

theorem accessible_eq_false_of_fault {c : Config} {a : Nat} (h : c.memOob = .fault) (ha : 4096 ≤ a) :
    accessible c a = false := by
  simp [accessible, h, ha]

/-- Settles O6, by the two sides of 4096 and the setting of `mem_oob`. -/
theorem memoryReadFollowsTheRangeRule : Obligations.MemoryReadFollowsTheRangeRule := by
  intro s a
  refine ⟨fun inside => ?_, fun past faults => ?_, fun _ wraps => ?_⟩
  · exact State.memRead_ok.2 ⟨accessible_of_lt inside, congrArg s.readCell (cellOf_of_lt inside)⟩
  · exact State.memRead_error.2 ⟨accessible_eq_false_of_fault faults past, rfl⟩
  · exact State.memRead_ok.2 ⟨accessible_of_wrap wraps a, rfl⟩

/-! ### The word read (R39) -/

/-- Two addresses that may be accessed give the word of their bytes, the first one high. -/
theorem State.memReadWord_of_accessible {s : State} {a : Nat} (first : accessible s.cfg a = true)
    (second : accessible s.cfg (a + 1) = true) :
    ∃ w, s.memReadWord a = .ok w ∧ w.toNat = (s.readByte a).toNat * 256 + (s.readByte (a + 1)).toNat :=
  ⟨_, State.memReadWord_ok.2 ⟨first, second, rfl⟩, wordOfBytes_toNat _ _⟩

/-- Settles O7, by which of the two bytes may be read; the word at 4095 ends in cell 4096 mod 4096. -/
theorem wordReadIsBigEndian : Obligations.WordReadIsBigEndian := by
  intro s a hi lo c
  refine ⟨fun high low => ?_, fun high => ?_, fun high low => ?_, fun wraps => ?_⟩
  · obtain ⟨first, rfl⟩ := State.memRead_ok.1 high
    obtain ⟨second, rfl⟩ := State.memRead_ok.1 low
    exact State.memReadWord_of_accessible first second
  · exact State.memReadWord_error.2 (.inl (State.memRead_error.1 high))
  · exact State.memReadWord_error.2 (.inr ⟨(State.memRead_ok.1 high).1, State.memRead_error.1 low⟩)
  · exact State.memReadWord_of_accessible (accessible_of_wrap wraps _) (accessible_of_wrap wraps _)

/-! ### FX55 and the fetch (R99, R41) -/

/-- A store whose addresses can be accessed answers its effect (R99). -/
theorem exec_store_of_inRange {x : Nibble} {s : State} (h : BlockInRange s (x.val + 1)) :
    exec (.store x) s = .next ((State.writeBytes (storeCells s x) s).setI (indexAfterTransfer s x)) :=
  withRange_ok (accessible_of_blockInRange h)

theorem nodup_regsUpTo (x : Nibble) : (regsUpTo x).Nodup := by
  have := x.isLt
  refine (List.nodup_map_iff_inj_on List.nodup_range).2 fun j hj k hk same => ?_
  rw [List.mem_range] at hj hk
  have residues : j % 16 = k % 16 := congrArg Fin.val same
  omega

/-- At most 16 consecutive addresses name different cells, whether or not they wrap. -/
theorem storeCells_distinct (s : State) (x : Nibble) :
    (storeCells s x).Pairwise fun p q => cellOf p.1 ≠ cellOf q.1 := by
  refine List.pairwise_map.2 ((nodup_regsUpTo x).imp fun {j k} different same => different (Fin.ext ?_))
  have cells : (s.I.toNat + j.val) % 4096 = (s.I.toNat + k.val) % 4096 := same
  have := j.isLt
  have := k.isLt
  omega

/-- What FX55 leaves at each address of its block (R99). -/
theorem State.readByte_writeBytes_storeCells (s : State) {x k : Nibble} (h : k ≤ x) :
    (State.writeBytes (storeCells s x) s).readByte (s.I.toNat + k.val) = s.getV k :=
  State.readByte_writeBytes_mem _ s (storeCells_distinct s x) (List.mem_map.2 ⟨k, mem_regsUpTo.2 h, rfl⟩)

/-- Settles O8: the fetch at I reads the first two bytes of the block that FX55 stored. -/
theorem storedBytesAreFetched : Obligations.StoredBytesAreFetched := by
  intro x s hx inRange
  refine ⟨_, exec_store_of_inRange inRange, fun u hmem hcfg hpc => ?_⟩
  have same : SameMemory (State.writeBytes (storeCells s x) s) u := sameMemory_of_eq hmem hcfg
  have high : u.readByte s.I.toNat = s.getV 0 := (same _).trans (s.readByte_writeBytes_storeCells (Fin.zero_le x))
  have low : u.readByte (s.I.toNat + 1) = s.getV 1 := (same _).trans (s.readByte_writeBytes_storeCells (k := 1) hx)
  have access : ∀ k < x.val + 1, accessible u.cfg (s.I.toNat + k) = true := by
    intro k hk
    rw [hcfg, State.setI_cfg, State.writeBytes_cfg]
    exact accessible_of_blockInRange inRange _ (mem_blockAddrs.2 ⟨k, hk, rfl⟩)
  rw [State.fetchWord, hpc, ← high, ← low]
  exact State.memReadWord_of_accessible (access 0 (by omega)) (access 1 (by omega))

end Sys2Proof.Machine
end

section
/-! PROOFS. The encoding: decode after encode and encode after decode, the rows of the opcode table a word can match,
the recognized words family by family, and the fault of every other word. -/

namespace Sys2Proof

/-! ### Decode after encode (R51–R59, R61) -/

theorem nField_ofNibbles_nibble {op : Nat} (ho : op < 16) (x y n : Nibble) : nField (ofNibbles op x y n) = n :=
  Fin.ext (nField_ofNibbles ho n.isLt x y)

/-- The fields of an assembled word are those it was assembled from, family by family. -/
theorem decode_encode (i : Instr) : decode (encode i) = .ok i := by
  cases i with
  | cls | ret => rfl
  | jp | call | ldI | jpOff => simp [encode, decode, opField_ofNNN, nnnField_ofNNN]
  | seImm | sneImm | ldImm | addImm | rnd =>
    simp [encode, decode, opField_ofXNN_byte, xField_ofXNN_byte, nnField_ofXNN_byte]
  | seReg | sneReg =>
    simp [encode, decode, decodeZeroN, opField_ofNibbles, xField_ofNibbles, yField_ofNibbles, nField_ofNibbles]
  | ldReg | orReg | andReg | xorReg | addReg | sub | shr | subn | shl =>
    simp [encode, decode, decodeFamily8, opField_ofNibbles, xField_ofNibbles, yField_ofNibbles, nField_ofNibbles]
  | drw => simp [encode, decode, opField_ofNibbles, xField_ofNibbles, yField_ofNibbles, nField_ofNibbles_nibble]
  | skp | sknp => simp [encode, decode, decodeFamilyE, opField_ofXNN, xField_ofXNN, nnField_ofXNN]
  | ldVxDt | ldVxK | ldDtVx | ldStVx | addI | ldF | ldB | store | load =>
    simp [encode, decode, decodeFamilyF, opField_ofXNN, xField_ofXNN, nnField_ofXNN]

/-- Two bytes are always enough, and what follows them is handed back (R61). -/
theorem decodeBytes_encodeBytes_append (i : Instr) (rest : List Byte) :
    decodeBytes (encodeBytes i ++ rest) = .ok (i, rest) := by
  simp [encodeBytes, decodeBytes, wordOfBytes_high_low, decode_encode, Except.map]

/-- Settles O2: each form of word is read back field by field, and the two bytes of a word make the word again. -/
theorem decodeOfEncodeIsIdentity : Obligations.DecodeOfEncodeIsIdentity :=
  fun i rest _ => ⟨decode_encode i, decodeBytes_encodeBytes_append i rest⟩

/-! ### Encode after decode (R54) -/

section
variable {w : Word} {op : Nat} (family : (opField w).toNat = op)
include family

theorem ofNNN_fields : ofNNN op (nnnField w).toNat = w := by
  rw [opField_toNat] at family
  have low := nnnField_toNat w
  exact BitVec.eq_of_toNat_eq (by rw [ofNNN_toNat (by omega) (by omega)]; omega)

theorem ofXNN_fields {nn : Nat} (hn : (nnField w).toNat = nn) : ofXNN op (xField w) nn = w := by
  rw [opField_toNat] at family
  rw [nnField_toNat] at hn
  have x := xField_val w
  exact BitVec.eq_of_toNat_eq (by rw [ofXNN_toNat (by omega) (by omega) (by omega)]; omega)

theorem ofNibbles_fields {n : Nat} (hn : (nField w).val = n) : ofNibbles op (xField w) (yField w) n = w := by
  rw [opField_toNat] at family
  rw [nField_val] at hn
  have x := xField_val w
  have y := yField_val w
  exact BitVec.eq_of_toNat_eq (by rw [ofNibbles_toNat (by omega) (by omega) (by omega) (by omega)]; omega)

end

section
variable {w : Word} {i : Instr}

theorem encode_of_decodeFamily0 (family : (opField w).toNat = 0x0) (h : decodeFamily0 w = .ok i) : encode i = w := by
  have word := ofNNN_fields family
  unfold decodeFamily0 at h
  split at h <;> cases h
  · next low => rwa [low] at word
  · next low => rwa [low] at word

theorem decodeZeroN_eq_ok {j : Instr} {e : Unrecognized} (h : decodeZeroN w j e = .ok i) :
    (nField w).val = 0 ∧ j = i := by
  unfold decodeZeroN at h
  split at h <;> cases h
  exact ⟨‹_›, rfl⟩

theorem encode_of_decodeFamily8 (family : (opField w).toNat = 0x8) (h : decodeFamily8 w = .ok i) : encode i = w := by
  unfold decodeFamily8 at h
  split at h <;> cases h <;> exact ofNibbles_fields family ‹_›

theorem encode_of_decodeFamilyE (family : (opField w).toNat = 0xE) (h : decodeFamilyE w = .ok i) : encode i = w := by
  unfold decodeFamilyE at h
  split at h <;> cases h <;> exact ofXNN_fields family ‹_›

theorem encode_of_decodeFamilyF (family : (opField w).toNat = 0xF) (h : decodeFamilyF w = .ok i) : encode i = w := by
  unfold decodeFamilyF at h
  split at h <;> cases h <;> exact ofXNN_fields family ‹_›

/-- The decoder's arms against the forms of `encode`: the family is the top nibble, the rest are the fields. -/
theorem encode_of_decode (h : decode w = .ok i) : encode i = w := by
  unfold decode at h
  split at h
  case h_1 family => exact encode_of_decodeFamily0 family h
  case h_2 family | h_3 family | h_11 family | h_12 family => cases h; exact ofNNN_fields family
  case h_4 family | h_5 family | h_7 family | h_8 family | h_13 family => cases h; exact ofXNN_fields family rfl
  case h_6 family | h_10 family =>
    obtain ⟨zeroN, rfl⟩ := decodeZeroN_eq_ok h
    exact ofNibbles_fields family zeroN
  case h_9 family => exact encode_of_decodeFamily8 family h
  case h_14 family => cases h; exact ofNibbles_fields family rfl
  case h_15 family => exact encode_of_decodeFamilyE family h
  case h_16 =>
    have bound := (opField w).isLt
    exact encode_of_decodeFamilyF (by grind) h

end

/-- Settles O3: each arm of the decoder fixes every bit of the word. -/
theorem encodeOfDecodeIsIdentity : Obligations.EncodeOfDecodeIsIdentity := fun _ _ h => encode_of_decode h

/-! ### The recognized words, family by family (R55–R60) -/

theorem exists_decodeFamily0_iff (w : Word) :
    (∃ i, decodeFamily0 w = .ok i) ↔ w.toNat % 4096 = 0x0E0 ∨ w.toNat % 4096 = 0x0EE := by
  rw [← nnnField_toNat]
  unfold decodeFamily0
  split <;> simp_all

theorem exists_decodeZeroN_iff (w : Word) (j : Instr) (e : Unrecognized) :
    (∃ i, decodeZeroN w j e = .ok i) ↔ w.toNat % 16 = 0 := by
  rw [← nField_val]
  unfold decodeZeroN
  split <;> simp_all

theorem exists_decodeFamily8_iff (w : Word) :
    (∃ i, decodeFamily8 w = .ok i) ↔ w.toNat % 16 ∈ [0, 1, 2, 3, 4, 5, 6, 7, 14] := by
  rw [← nField_val]
  unfold decodeFamily8
  split <;> simp_all

theorem exists_decodeFamilyE_iff (w : Word) :
    (∃ i, decodeFamilyE w = .ok i) ↔ w.toNat % 256 ∈ [0x9E, 0xA1] := by
  rw [← nnField_toNat]
  unfold decodeFamilyE
  split <;> simp_all

theorem exists_decodeFamilyF_iff (w : Word) :
    (∃ i, decodeFamilyF w = .ok i) ↔ w.toNat % 256 ∈ [0x07, 0x0A, 0x15, 0x18, 0x1E, 0x29, 0x33, 0x55, 0x65] := by
  rw [← nnField_toNat]
  unfold decodeFamilyF
  split <;> simp_all

/-- A word whose top nibble is 0 is its 12 low bits. -/
theorem eq_iff_family0 (w v : Word) (hv : v.toNat < 4096) :
    w = v ↔ w.toNat / 4096 = 0 ∧ w.toNat % 4096 = v.toNat := by
  rw [← BitVec.toNat_inj]
  omega

/-- Settles O5: the top nibble picks the arm of the decoder, and each family that looks further has its own codes. -/
theorem recognizedWordsByFamily : Obligations.RecognizedWordsByFamily := by
  intro w
  rw [eq_iff_family0 w 0x00E0 (by decide), eq_iff_family0 w 0x00EE (by decide), ← opField_toNat]
  unfold decode
  split
  case h_1 family => simp [exists_decodeFamily0_iff, family]
  case h_6 family | h_10 family => simp [exists_decodeZeroN_iff, family]
  case h_9 family => simp [exists_decodeFamily8_iff, family]
  case h_15 family => simp [exists_decodeFamilyE_iff, family]
  case h_16 =>
    have bound := (opField w).isLt
    have family : (opField w).toNat = 0xF := by grind
    simp [exists_decodeFamilyF_iff, family]
  all_goals next family => simp [family]

/-! ### The opcode table (R54) -/

/-- Two rows that ask for the same bits under the mask they share are one row. -/
theorem opcodeTable_rows_disjoint : ∀ r ∈ opcodeTable, ∀ q ∈ opcodeTable,
    q.bits &&& r.mask = r.bits &&& q.mask → q = r := by decide

/-- "At most one row matches any word." -/
theorem row_unique {w : Word} {r q : OpcodeRow} (hr : r ∈ opcodeTable) (hq : q ∈ opcodeTable)
    (rowR : w &&& r.mask = r.bits) (rowQ : w &&& q.mask = q.bits) : q = r :=
  opcodeTable_rows_disjoint r hr q hq
    (by rw [← rowR, ← rowQ, BitVec.and_assoc, BitVec.and_assoc, BitVec.and_comm q.mask])

/-- The row of each instruction, from the lemma of its constructor. -/
theorem tableRow (i : Instr) : Laws.TableRow.Statement i := by
  cases i with
  | cls => exact Laws.TableRow.cls
  | ret => exact Laws.TableRow.ret
  | jp nnn => exact Laws.TableRow.jp nnn
  | call nnn => exact Laws.TableRow.call nnn
  | seImm x nn => exact Laws.TableRow.seImm x nn
  | sneImm x nn => exact Laws.TableRow.sneImm x nn
  | seReg x y => exact Laws.TableRow.seReg x y
  | ldImm x nn => exact Laws.TableRow.ldImm x nn
  | addImm x nn => exact Laws.TableRow.addImm x nn
  | ldReg x y => exact Laws.TableRow.ldReg x y
  | orReg x y => exact Laws.TableRow.orReg x y
  | andReg x y => exact Laws.TableRow.andReg x y
  | xorReg x y => exact Laws.TableRow.xorReg x y
  | addReg x y => exact Laws.TableRow.addReg x y
  | sub x y => exact Laws.TableRow.sub x y
  | shr x y => exact Laws.TableRow.shr x y
  | subn x y => exact Laws.TableRow.subn x y
  | shl x y => exact Laws.TableRow.shl x y
  | sneReg x y => exact Laws.TableRow.sneReg x y
  | ldI nnn => exact Laws.TableRow.ldI nnn
  | jpOff nnn => exact Laws.TableRow.jpOff nnn
  | rnd x nn => exact Laws.TableRow.rnd x nn
  | drw x y n => exact Laws.TableRow.drw x y n
  | skp x => exact Laws.TableRow.skp x
  | sknp x => exact Laws.TableRow.sknp x
  | ldVxDt x => exact Laws.TableRow.ldVxDt x
  | ldVxK x => exact Laws.TableRow.ldVxK x
  | ldDtVx x => exact Laws.TableRow.ldDtVx x
  | ldStVx x => exact Laws.TableRow.ldStVx x
  | addI x => exact Laws.TableRow.addI x
  | ldF x => exact Laws.TableRow.ldF x
  | ldB x => exact Laws.TableRow.ldB x
  | store x => exact Laws.TableRow.store x
  | load x => exact Laws.TableRow.load x

theorem exists_row_of_decode {w : Word} {i : Instr} (h : decode w = .ok i) :
    ∃ r ∈ opcodeTable, r.mnemonic = i.mnemonic ∧ w &&& r.mask = r.bits := by
  obtain ⟨r, hr, name, row⟩ := tableRow i
  rw [encode_of_decode h, OpcodeRow.matchesWord, beq_iff_eq] at row
  exact ⟨r, hr, name, row⟩

/-- The four shapes of a row: which families have which mask, and their codes under it. -/
theorem opcodeTable_shape : ∀ r ∈ opcodeTable,
    (r.mask = 0xFFFF ∧ r.bits ∈ [0x00E0, 0x00EE]) ∨
    (r.mask = 0xF000 ∧ r.bits.toNat / 4096 ∈ [1, 2, 3, 4, 6, 7, 10, 11, 12, 13]) ∨
    (r.mask = 0xF00F ∧ (r.bits.toNat / 4096 ∈ [5, 9] ∧ r.bits.toNat % 16 = 0 ∨
      r.bits.toNat / 4096 = 8 ∧ r.bits.toNat % 16 ∈ [0, 1, 2, 3, 4, 5, 6, 7, 14])) ∨
    (r.mask = 0xF0FF ∧ (r.bits.toNat / 4096 = 14 ∧ r.bits.toNat % 256 ∈ [0x9E, 0xA1] ∨
      r.bits.toNat / 4096 = 15 ∧
        r.bits.toNat % 256 ∈ [0x07, 0x0A, 0x15, 0x18, 0x1E, 0x29, 0x33, 0x55, 0x65])) := by decide

/-- A row's mask holds the sub-field its family decodes on, so a word that matches has the codes of the row. -/
theorem exists_decode_of_row {w : Word} {r : OpcodeRow} (hr : r ∈ opcodeTable) (row : w &&& r.mask = r.bits) :
    ∃ i, decode w = .ok i := by
  rw [recognizedWordsByFamily w]
  obtain ⟨mask, bits⟩ | ⟨mask, bits⟩ | ⟨mask, bits⟩ | ⟨mask, bits⟩ := opcodeTable_shape r hr <;>
    rw [← row, mask] at bits
  · rw [mask_FFFF] at bits
    simp only [List.mem_cons, List.not_mem_nil, or_false] at bits
    tauto
  · rw [mask_F000_toNat, Nat.mul_div_cancel _ (by decide)] at bits
    exact .inr (.inr (.inl bits))
  · have family : (w.toNat / 4096 * 4096 + w.toNat % 16) / 4096 = w.toNat / 4096 := by omega
    have low : (w.toNat / 4096 * 4096 + w.toNat % 16) % 16 = w.toNat % 16 := by omega
    rw [mask_F00F_toNat, family, low] at bits
    tauto
  · have family : (w.toNat / 4096 * 4096 + w.toNat % 256) / 4096 = w.toNat / 4096 := by omega
    have low : (w.toNat / 4096 * 4096 + w.toNat % 256) % 256 = w.toNat % 256 := by omega
    rw [mask_F0FF_toNat, family, low] at bits
    tauto

/-- Settles O4: a recognized word is the encoding of its instruction, which has a row; the rows exclude each other. -/
theorem decoderFollowsTheOpcodeTable : Obligations.DecoderFollowsTheOpcodeTable := by
  refine ⟨fun w i h => ?_, fun w ⟨r, hr, row⟩ => exists_decode_of_row hr row⟩
  obtain ⟨r, hr, name, row⟩ := exists_row_of_decode h
  exact ⟨r, hr, name, row, fun _ hq => row_unique hr hq row⟩

/-! ### Fixed words, and the fault of an unrecognized one (R60, R69) -/

/-- Settles O1: each fixed word runs through the decoder. -/
theorem sampleWordsDecode : Obligations.SampleWordsDecode := by
  unfold Obligations.SampleWordsDecode
  decide

namespace Machine

/-- A fault taken where `pc` still is the fetch address adds the record and nothing else (R69). -/
theorem State.takeFault_of_pc {s : State} {p : Word} (h : s.pc = p) (c : FaultCause) (w : Option Word) :
    s.takeFault c w p = { s with fault := some ⟨c, w, p⟩ } := by
  subst h
  rfl

theorem runWord_of_error {w : Word} {e : Unrecognized} (h : decode w = .error e) (s : State) :
    runWord w s = .next (s.takeFault .unrecognizedOpcode (some w) s.pc) := by
  rw [runWord, h]

/-- Settles O14: the fetch reads the word, the decoder answers none, and the top of the cycle has left `pc`. -/
theorem unrecognizedWordFaults : Obligations.UnrecognizedWordFaults := by
  intro s w e running fetched unrecognized
  rw [step_of_running running, fetched]
  exact (runWord_of_error unrecognized _).trans (by rw [s.beginCycle_pc, State.takeFault_of_pc s.beginCycle_pc])

end Machine

end Sys2Proof
end

section
/-! PROOFS. The cycle: its top, its fetch and its instruction, and where the fault record of a cycle comes from. Every
fault of a cycle is read off `step_fault_cases`, and every fault of an instruction off `exec_recordEffect`. -/

open Sys2Proof.Claims

namespace Sys2Proof.Machine

/-! ### The top of a cycle -/

/-- A cycle for which nothing is queued has no tick and no event (R122). -/
theorem State.beginCycle_of_no_inputs {s : State} (h : s.inputs = []) :
    s.beginCycle = { s with rnd := Config.freeByte s.draws, draws := s.draws + 1 } := by
  simp [State.beginCycle, State.nextInput, State.takeInput, State.pace, State.drain, h]

@[simp] theorem State.beginCycle_getV (s : State) (r : Nibble) : s.beginCycle.getV r = s.getV r := by
  simp [State.getV]

/-- Settles O12: the frame is that of the top of a cycle, and an empty queue leaves the timers and the keypad too. -/
theorem topOfCycleFrame : Obligations.TopOfCycleFrame := by
  intro s
  refine ⟨s.beginCycle_eq, sameMemory_of_eq s.beginCycle_mem s.beginCycle_cfg, s.beginCycle_getV, fun h => ?_⟩
  rw [State.beginCycle_of_no_inputs h]

/-! ### The instruction of a cycle -/

theorem runWord_of_ok {w : Word} {i : Instr} (h : decode w = .ok i) (s : State) : runWord w s = exec i s.advance := by
  rw [runWord, h]

/-- Two bytes decode as the word they make. -/
theorem decode_wordOfBytes {hi lo : Byte} {i : Instr} {rest : List Byte} (h : decodeBytes [hi, lo] = .ok (i, rest)) :
    decode (wordOfBytes hi lo) = .ok i := by
  cases hd : decode (wordOfBytes hi lo) <;> simp_all [decodeBytes, Except.map]

/-- Settles O9: the two bytes make the fetched word, and the top of the cycle has left `pc`. -/
theorem stepRunsTheDecodedInstruction : Obligations.StepRunsTheDecodedInstruction := by
  intro s hi lo i running high low decoded
  have fetched : s.fetchWord = .ok (wordOfBytes hi lo) := by rw [State.fetchWord, State.memReadWord, high, low]
  refine ⟨rfl, s.beginCycle_pc, ?_⟩
  rw [step_of_running running, fetched]
  exact runWord_of_ok (decode_wordOfBytes decoded) _

/-! ### Every cycle of a running core answers -/

theorem exists_runWord (w : Word) (s : State) : ∃ t, runWord w s = .next t := by
  cases h : decode w with
  | error e => exact ⟨_, runWord_of_error h s⟩
  | ok i =>
    obtain ⟨t, ht, -⟩ := exec_effect i s.advance
    exact ⟨t, (runWord_of_ok h s).trans ht⟩

theorem exists_step_of_running {s : State} (running : s.fault = none) : ∃ t, step s = .next t := by
  rw [step_of_running running]
  cases s.fetchWord with
  | error c => exact ⟨_, rfl⟩
  | ok w => exact exists_runWord w _

/-- Settles O16, by whether a fault record is held. -/
theorem everyCycleOfARunningCoreCompletes : Obligations.EveryCycleOfARunningCoreCompletes := by
  intro s
  cases hf : s.fault with
  | none =>
    obtain ⟨t, ht⟩ := exists_step_of_running hf
    simp [ht]
  | some r => simp [faultedCoreTakesNoCycle s r hf]

/-! ### The fault of a fetch (R66, R113) -/

theorem accessible_eq_false_iff {c : Config} {a : Nat} :
    accessible c a = false ↔ c.memOob = .fault ∧ 4096 ≤ a := by
  cases h : c.memOob <;> simp [accessible, h]

/-- A fetch faults under `mem_oob = fault` from the last byte of memory on, at the lower of its addresses past memory. -/
theorem State.fetchWord_error {s : State} {c : FaultCause} :
    s.fetchWord = .error c ↔
      s.cfg.memOob = .fault ∧ 0x0FFF ≤ s.pc.toNat ∧ c = .memoryOutOfRange (max s.pc.toNat 0x1000) := by
  rw [State.fetchWord, State.memReadWord_error, ← Bool.not_eq_false (accessible s.cfg s.pc.toNat)]
  simp only [accessible_eq_false_iff]
  rcases lt_trichotomy s.pc.toNat 0x0FFF with inside | last | past
  · have first : ¬ 0x1000 ≤ s.pc.toNat := by omega
    have second : ¬ 0x1000 ≤ s.pc.toNat + 1 := by omega
    simp [first, second, inside.not_ge]
  · simp [last]
  · have first : 0x1000 ≤ s.pc.toNat := past
    simp +contextual [first, past.le, ← and_assoc]

/-- Settles O13: the fetch faults, and the top of the cycle has left `pc`. -/
theorem fetchPastMemoryFaults : Obligations.FetchPastMemoryFaults := by
  intro s running mode past
  rw [step_of_running running, State.fetchWord_error.2 ⟨mode, past, rfl⟩]
  exact congrArg _ (State.takeFault_of_pc s.beginCycle_pc _ _)

/-! ### The faults of an instruction (R110) -/

/-- A register value is a key code or digit, or lies above 0xF. -/
theorem exists_nibble_or_past (b : Byte) : (∃ k : Nibble, b.toNat = k.val) ∨ 16 ≤ b.toNat := by
  rcases Nat.lt_or_ge b.toNat 16 with small | past
  · exact .inl ⟨⟨b.toNat, small⟩, rfl⟩
  · exact .inr past

/-- What an instruction can do to the fault record: nothing, or raise a fault from a cause that R110 names for it. -/
inductive RecordEffect (i : Instr) (s : State) : State → Prop where
  | kept {t : State} (same : t.fault = s.fault) : RecordEffect i s t
  | raised (c : FaultCause) (named : InstructionFault i s c) : RecordEffect i s (s.raise c i)

/-- A range check raises a code 3 at the lowest address of the block past memory, or leaves the record to the effect. -/
theorem RecordEffect.of_withRange {i : Instr} {s effect : State} {n : Nat} (count : accessCount s i = some n)
    (same : effect.fault = s.fault) :
    ∃ t, withRange (blockAddrs s.I n) i effect s = .next t ∧ RecordEffect i s t := by
  rcases withRange_cases (blockAddrs s.I n) i effect s with ⟨-, answer⟩ | ⟨a, first, answer⟩
  · exact ⟨_, answer, .kept same⟩
  · obtain ⟨mode, lowest, inBlock⟩ := firstOutOfRange_block_some first
    exact ⟨_, answer, .raised _ (.inr (.inl ⟨rfl, mode, a, n, rfl, count, lowest, inBlock⟩))⟩

/-- The fault an instruction raises, by the instructions that can raise one; each other one keeps the record. -/
theorem exec_recordEffect (i : Instr) (s : State) : ∃ t, exec i s = .next t ∧ RecordEffect i s t := by
  cases i with
  | ret =>
    rcases List.eq_nil_or_concat' s.stack with empty | ⟨l, a, top⟩
    · exact ⟨_, exec_ret_of_nil empty, .raised _ (.inl ⟨rfl, rfl, rfl, empty⟩)⟩
    · exact ⟨_, exec_ret_of_append top, .kept rfl⟩
  | call nnn =>
    by_cases full : s.cfg.stackLimit = some s.stack.length
    · exact ⟨_, exec_call_of_limit_eq nnn full, .raised _ (.inr (.inr (.inl ⟨rfl, rfl, full, nnn, rfl⟩)))⟩
    · exact ⟨_, exec_call_of_limit_ne nnn full, .kept rfl⟩
  | skp x =>
    rcases exists_nibble_or_past (s.getV x) with ⟨k, key⟩ | past
    · exact ⟨_, exec_skp_of_key key, .kept rfl⟩
    · exact ⟨_, exec_skp_of_no_key past, .raised _ (.inr (.inr (.inr (.inl ⟨rfl, x, rfl, past, .inl rfl⟩))))⟩
  | sknp x =>
    rcases exists_nibble_or_past (s.getV x) with ⟨k, key⟩ | past
    · exact ⟨_, exec_sknp_of_key key, .kept rfl⟩
    · exact ⟨_, exec_sknp_of_no_key past, .raised _ (.inr (.inr (.inr (.inl ⟨rfl, x, rfl, past, .inr rfl⟩))))⟩
  | ldF x =>
    rcases exists_nibble_or_past (s.getV x) with ⟨d, digit⟩ | past
    · exact ⟨_, exec_ldF_of_digit (nibbleOfByte_some.2 digit), .kept rfl⟩
    · exact ⟨_, exec_ldF_of_no_digit (nibbleOfByte_none.2 past),
        .raised _ (.inr (.inr (.inr (.inr ⟨rfl, x, rfl, past, rfl⟩))))⟩
  | ldVxK x =>
    cases pending : s.released with
    | none => exact ⟨_, exec_ldVxK_of_no_release pending, .kept rfl⟩
    | some k => exact ⟨_, exec_ldVxK_of_release pending, .kept rfl⟩
  | ldB | store | load | drw => exact RecordEffect.of_withRange rfl (by simp)
  | seImm | sneImm | seReg | sneReg => exact ⟨_, skipIf_eq _ _, .kept rfl⟩
  | _ => exact ⟨_, rfl, .kept (by simp)⟩

/-- What an instruction that answers `t` did to the fault record. -/
theorem recordEffect_of_exec {i : Instr} {s t : State} (h : exec i s = .next t) : RecordEffect i s t := by
  obtain ⟨u, hu, effect⟩ := exec_recordEffect i s
  rw [hu] at h
  exact Host.Outcome.next.inj h ▸ effect

/-- A running core whose instruction ends in a fault has raised it, from a cause that R110 names for it. -/
theorem raised_of_exec {i : Instr} {s t : State} {r : FaultRecord} (running : s.fault = none)
    (h : exec i s = .next t) (hr : t.fault = some r) :
    ∃ c, t = s.raise c i ∧ r = ⟨c, some (encode i), s.pc - 2⟩ ∧ InstructionFault i s c := by
  cases recordEffect_of_exec h with
  | kept same => simp [same, running] at hr
  | raised c named =>
    exact ⟨c, rfl, (Option.some.inj hr).symm, named⟩

/-! ### The fault of a cycle (R69) -/

/-- A fault raised past the fetch's advance is taken at the fetch address (R66). -/
theorem State.raise_advance (s : State) (c : FaultCause) (i : Instr) :
    s.advance.raise c i = s.takeFault c (some (encode i)) s.pc := by
  simp [State.raise, State.takeFault, State.setPc]

/-- Which faults an instruction may raise is not a matter of what the cycle does before it. -/
theorem instructionFault_of_top {i : Instr} {s : State} {c : FaultCause}
    (h : InstructionFault i s.beginCycle.advance c) : InstructionFault i s c := by
  have count : accessCount s.beginCycle.advance i = accessCount s i := by cases i <;> simp [accessCount]
  rw [InstructionFault, count] at h
  simpa [InstructionFault] using h

/-- What a cycle that ends in a fault leaves, and the three places its record can come from: the fetch, the decode and
the instruction. -/
theorem step_fault_cases {s t : State} {r : FaultRecord} (h : step s = .next t) (hr : t.fault = some r) :
    t = { s.beginCycle with fault := some r } ∧ r.pcFetch = s.pc ∧
      ((s.fetchWord = .error r.cause ∧ r.word = none) ∨
       (∃ w e, s.fetchWord = .ok w ∧ decode w = .error e ∧ r.cause = .unrecognizedOpcode ∧ r.word = some w) ∨
       (∃ w i, s.fetchWord = .ok w ∧ decode w = .ok i ∧ r.word = some w ∧ InstructionFault i s r.cause)) := by
  obtain ⟨running, ⟨c, fetched, rfl⟩ | ⟨w, e, fetched, decoded, rfl⟩ | ⟨w, i, fetched, decoded, executed⟩⟩ :=
    step_cases h
  · obtain rfl := Option.some.inj hr
    exact ⟨State.takeFault_of_pc s.beginCycle_pc _ _, rfl, .inl ⟨fetched, rfl⟩⟩
  · obtain rfl := Option.some.inj hr
    exact ⟨State.takeFault_of_pc s.beginCycle_pc _ _, rfl, .inr (.inl ⟨w, e, fetched, decoded, rfl, rfl⟩)⟩
  · obtain ⟨c, rfl, -, named⟩ := raised_of_exec (by simpa using running) executed hr
    rw [State.raise_advance, encode_of_decode decoded, s.beginCycle_pc] at hr ⊢
    obtain rfl := Option.some.inj hr
    exact ⟨State.takeFault_of_pc s.beginCycle_pc _ _, rfl,
      .inr (.inr ⟨w, i, fetched, decoded, rfl, instructionFault_of_top named⟩)⟩

/-- Settles O17: the word of the record is the fetched one, or there is none after a fetch that faulted. -/
theorem faultsArePrecise : Obligations.FaultsArePrecise := by
  intro s t r _ h hr
  obtain ⟨precise, fetchAddress, source⟩ := step_fault_cases h hr
  refine ⟨precise, fetchAddress, by rw [precise]; exact s.beginCycle_pc, ?_⟩
  rcases source with ⟨fetched, word⟩ | ⟨w, e, fetched, -, -, word⟩ | ⟨w, i, fetched, -, word, -⟩
  · exact .inr ⟨word, fetched⟩
  · exact .inl ⟨w, word, fetched⟩
  · exact .inl ⟨w, word, fetched⟩

/-- Settles O18: the cycle's fetch, its decode and its instruction each raise their own codes. -/
theorem faultsComeFromTheirNamedCauses : Obligations.FaultsComeFromTheirNamedCauses := by
  refine ⟨fun s t r _ h hr => ?_, fun i s t r running h hr => ?_⟩
  · obtain ⟨-, fetchAddress, source⟩ := step_fault_cases h hr
    refine ⟨fetchAddress, ?_⟩
    rcases source with ⟨fetched, word⟩ | ⟨w, e, fetched, decoded, cause, word⟩ | instruction
    · obtain ⟨mode, past, cause⟩ := State.fetchWord_error.1 fetched
      exact .inr (.inl ⟨by rw [cause]; rfl, word, mode, past, cause⟩)
    · exact .inl ⟨by rw [cause]; rfl, cause, w, e, fetched, decoded, word⟩
    · exact .inr (.inr instruction)
  · obtain ⟨c, -, rfl, named⟩ := raised_of_exec running h hr
    exact ⟨rfl, rfl, named⟩

end Sys2Proof.Machine
end

section
/-! PROOFS. The jumps and the register skips: one equation per instruction, and the sum of the jump with offset. -/

open Sys2Proof.Claims

namespace Sys2Proof.Machine

/-! ### The jumps (R74, R76) -/

theorem exec_jp (nnn : Addr12) (s : State) : exec (.jp nnn) s = .next (s.setPc (nnn.setWidth 16)) := rfl

theorem exec_jpOff (nnn : Addr12) (s : State) :
    exec (.jpOff nnn) s = .next (s.setPc (nnn.setWidth 16 + (jumpOffset s nnn).setWidth 16)) := rfl

/-- Settles O32: the zero extension of NNN keeps its value. -/
theorem jumpGoesToNNN : Obligations.JumpGoesToNNN := by
  intro nnn s
  exact ⟨_, exec_jp nnn s, BitVec.toNat_setWidth_of_le (by decide), onlyPc_setPc _ _⟩

/-- An address and a byte add up to at most 4095 + 255, so the word-wide sum does not wrap. -/
theorem toNat_addr_add_byte (nnn : Addr12) (b : Byte) :
    (nnn.setWidth 16 + b.setWidth 16 : Word).toNat = nnn.toNat + b.toNat := by
  have := nnn.isLt
  have := b.isLt
  simp only [BitVec.toNat_add, BitVec.toNat_setWidth]
  omega

theorem jumpOffset_of_quirk_off {s : State} (nnn : Addr12) (h : s.cfg.jumpOffsetUsesVx = false) :
    jumpOffset s nnn = s.getV 0 := by
  simp [jumpOffset, h]

theorem jumpOffset_of_quirk_on {s : State} {nnn : Addr12} {x : Nibble} (h : s.cfg.jumpOffsetUsesVx = true)
    (hx : x.val = nnn.toNat / 256) : jumpOffset s nnn = s.getV x := by
  have field : (nnn.extractLsb' 8 4).toFin = x := by
    have := nnn.isLt
    apply Fin.ext
    rw [BitVec.val_toFin, BitVec.extractLsb'_toNat, Nat.shiftRight_eq_div_pow]
    omega
  rw [jumpOffset, if_pos h, field]

/-- Settles O36: the sum is exact, and the quirk picks its register. -/
theorem jumpWithOffset : Obligations.JumpWithOffset := by
  intro nnn s
  refine ⟨_, exec_jpOff nnn s, onlyPc_setPc _ _, fun off => ?_, fun on x hx => ?_⟩
  · rw [State.setPc_pc, toNat_addr_add_byte, jumpOffset_of_quirk_off nnn off]
  · rw [State.setPc_pc, toNat_addr_add_byte, jumpOffset_of_quirk_on on hx]

/-! ### The register skips (R77 to R80) -/

theorem skipIf_beq (a b : Byte) (s : State) :
    skipIf (a == b) s = .next (s.setPc (if a = b then s.pc + 2 else s.pc)) := by
  simp only [skipIf_eq, beq_iff_eq]

theorem skipIf_bne (a b : Byte) (s : State) :
    skipIf (a != b) s = .next (s.setPc (if a = b then s.pc else s.pc + 2)) := by
  simp only [skipIf_eq, bne_iff_ne, ne_eq, ite_not]

/-- Settles O37: the immediate and the register forms are each a skip on a comparison. -/
theorem registerSkips : Obligations.RegisterSkips := by
  intro x y nn s
  exact ⟨⟨_, skipIf_beq (s.getV x) nn s, onlyPc_setPc _ _⟩,
    ⟨_, skipIf_bne (s.getV x) nn s, onlyPc_setPc _ _⟩,
    ⟨_, skipIf_beq (s.getV x) (s.getV y) s, onlyPc_setPc _ _⟩,
    ⟨_, skipIf_bne (s.getV x) (s.getV y) s, onlyPc_setPc _ _⟩⟩

end Sys2Proof.Machine
end

section
/-! PROOFS. Register loads, arithmetic, logic, shifts and random: the frames of a write of one register and of a result
with its flag, each operation on bytes as arithmetic or bit by bit, and the obligations assembled from the two. -/

open Sys2Proof.Claims

namespace Sys2Proof

/-! ### A row of the table with the mask 0xF000 (R54) -/

theorem opField_of_mask_F000 {w bits : Word} (h : w &&& 0xF000 = bits) : (opField w).toNat = bits.toNat / 4096 := by
  rw [opField_toNat, ← h, mask_F000_toNat, Nat.mul_div_cancel _ (by decide)]

theorem decode_of_family6 {w : Word} (family : (opField w).toNat = 0x6) :
    decode w = .ok (.ldImm (xField w) (nnField w)) := by
  simp [decode, family]

namespace Machine

/-! ### Frames -/

theorem onlyRegs_setV (s : State) (x : Nibble) (b : Byte) : OnlyRegs s (s.setV x b) [x] :=
  ⟨s.setV_eq x b, sameMemory_of_eq rfl rfl, fun _ hr => State.getV_setV_ne s (List.ne_of_not_mem_cons hr) b⟩

theorem onlyRegs_setResultAndFlag (s : State) (x : Nibble) (r f : Byte) :
    OnlyRegs s (s.setResultAndFlag x r f) [x, 15] := by
  refine ⟨rfl, sameMemory_of_eq rfl rfl, fun k hk => ?_⟩
  obtain ⟨hx, hf⟩ : k ≠ x ∧ k ≠ vf := by simpa using hk
  rw [State.getV_setResultAndFlag, if_neg hf, if_neg hx]

/-- The flag is written last, so that it remains when the result's register is VF (decision D8). -/
theorem State.getV_vf_setResultAndFlag (s : State) (x : Nibble) (r f : Byte) :
    (s.setResultAndFlag x r f).getV 15 = f := by
  rw [State.getV_setResultAndFlag, if_pos rfl]

theorem State.getV_setResultAndFlag_of_ne {x : Nibble} (hx : x ≠ 15) (s : State) (r f : Byte) :
    (s.setResultAndFlag x r f).getV x = r := by
  rw [State.getV_setResultAndFlag, if_neg hx, if_pos rfl]

/-! ### Add and subtract (R88, R89, R91) -/

theorem boolToByte_carry (a b : Byte) : boolToByte (carry a b) = flagByte (a.toNat + b.toNat > 255) := by
  simp [boolToByte, carry, flagByte]

theorem boolToByte_noBorrow (a b : Byte) : boolToByte (noBorrow a b) = flagByte (a.toNat ≥ b.toNat) := by
  simp [boolToByte, noBorrow, flagByte]

/-- A difference of bytes with the minuend first, as the rules write it. -/
theorem toNat_byte_sub (a b : Byte) : (a - b).toNat = (256 + a.toNat - b.toNat) % 256 := by
  bv_omega

/-- Settles O41: the carry is the flag, written last, and the byte sum is the sum mod 256. -/
theorem addSetsCarry : Obligations.AddSetsCarry := by
  intro x y s
  refine ⟨_, rfl, ?_, fun hx => ?_, onlyRegs_setResultAndFlag _ _ _ _⟩
  · rw [State.getV_vf_setResultAndFlag, boolToByte_carry]
  · rw [State.getV_setResultAndFlag_of_ne hx, BitVec.toNat_add]

/-- The subtraction `a - b` into VX with its flag, whichever of the two operands VX holds. -/
theorem subtract_of_exec {i : Instr} {s : State} {x : Nibble} {a b : Byte}
    (h : exec i s = .next (s.setResultAndFlag x (a - b) (boolToByte (noBorrow a b)))) :
    ∃ t, exec i s = .next t ∧ t.getV 15 = flagByte (a.toNat ≥ b.toNat) ∧
      (x ≠ 15 → (t.getV x).toNat = (256 + a.toNat - b.toNat) % 256) ∧ OnlyRegs s t [x, 15] := by
  refine ⟨_, h, ?_, fun hx => ?_, onlyRegs_setResultAndFlag _ _ _ _⟩
  · rw [State.getV_vf_setResultAndFlag, boolToByte_noBorrow]
  · rw [State.getV_setResultAndFlag_of_ne hx, toNat_byte_sub]

/-- Settles O42: the two instructions are one subtraction with its operands in either order. -/
theorem subtractSetsNoBorrow : Obligations.SubtractSetsNoBorrow := by
  intro x y s
  exact ⟨subtract_of_exec rfl, subtract_of_exec rfl⟩

/-! ### The shifts (R90, R92) -/

theorem shiftSource_toNat (s : State) (x y : Nibble) :
    (shiftSource s x y).toNat = if s.cfg.assignBeforeShift = true then (s.getV y).toNat else (s.getV x).toNat := by
  rw [shiftSource, apply_ite BitVec.toNat]

theorem bitOutRight_toNat (b : Byte) : (bitOutRight b).toNat = b.toNat % 2 := by
  rw [bitOutRight, BitVec.toNat_and]
  exact Nat.and_one_is_mod _

theorem bitOutLeft_toNat (b : Byte) : (bitOutLeft b).toNat = b.toNat / 128 := by
  rw [bitOutLeft, BitVec.toNat_ushiftRight, Nat.shiftRight_eq_div_pow]

theorem toNat_byte_shiftRight_one (b : Byte) : (b >>> 1).toNat = b.toNat / 2 := by
  rw [BitVec.toNat_ushiftRight, Nat.shiftRight_eq_div_pow, pow_one]

theorem toNat_byte_shiftLeft_one (b : Byte) : (b <<< 1).toNat = 2 * b.toNat % 256 := by
  rw [BitVec.toNat_shiftLeft, Nat.shiftLeft_eq, pow_one, Nat.mul_comm]

/-- Settles O43: the bit shifted out is the flag, written last, and the quirk picks the value that both come from. -/
theorem shiftsMoveOneBitIntoTheFlag : Obligations.ShiftsMoveOneBitIntoTheFlag := by
  intro x y s v hv
  rw [← shiftSource_toNat] at hv
  subst hv
  refine ⟨⟨_, rfl, ?_, fun hx => ?_, onlyRegs_setResultAndFlag _ _ _ _⟩,
    ⟨_, rfl, ?_, fun hx => ?_, onlyRegs_setResultAndFlag _ _ _ _⟩⟩
  · rw [State.getV_vf_setResultAndFlag, bitOutRight_toNat]
  · rw [State.getV_setResultAndFlag_of_ne hx, toNat_byte_shiftRight_one]
  · rw [State.getV_vf_setResultAndFlag, bitOutLeft_toNat]
  · rw [State.getV_setResultAndFlag_of_ne hx, toNat_byte_shiftLeft_one]

/-! ### Load, add immediate, copy, logic and random: one register and no flag (R82 to R87, R93) -/

/-- Settles O38: the top nibble of the word is its family, which looks no further. -/
theorem loadImmediate : Obligations.LoadImmediate := by
  refine ⟨fun w row => decode_of_family6 (opField_of_mask_F000 row), fun x nn s => ?_⟩
  exact ⟨_, rfl, State.getV_setV_same s x nn, onlyRegs_setV s x nn⟩

/-- Settles O39: the byte sum is the sum mod 256. -/
theorem addImmediateWrapsWithoutFlag : Obligations.AddImmediateWrapsWithoutFlag := by
  intro x nn s
  refine ⟨_, rfl, ?_, onlyRegs_setV _ _ _⟩
  rw [State.getV_setV_same, BitVec.toNat_add]

/-- Settles O40: each operation on bytes is its operation on bits, and one register is written. -/
theorem copyAndLogic : Obligations.CopyAndLogic := by
  intro x y s
  refine ⟨⟨_, rfl, State.getV_setV_same _ _ _, onlyRegs_setV _ _ _⟩,
    ⟨_, rfl, onlyRegs_setV _ _ _, fun k => ?_⟩, ⟨_, rfl, onlyRegs_setV _ _ _, fun k => ?_⟩,
    ⟨_, rfl, onlyRegs_setV _ _ _, fun k => ?_⟩⟩
  · rw [State.getV_setV_same, BitVec.getLsbD_or]
  · rw [State.getV_setV_same, BitVec.getLsbD_and]
  · rw [State.getV_setV_same, BitVec.getLsbD_xor]

/-- Settles O44: the mask is cleared by its complement, whatever the cycle's byte is. -/
theorem randomByteUnderMask : Obligations.RandomByteUnderMask := by
  rintro x nn _ s rfl
  refine ⟨_, rfl, onlyRegs_setV _ _ _, fun k => ?_, ?_⟩
  · rw [State.getV_setV_same, BitVec.getLsbD_and]
  · rw [State.getV_setV_same, BitVec.and_assoc, BitVec.and_not_self]
    exact BitVec.and_zero

end Machine

end Sys2Proof
end

section
/-! PROOFS. The index register and the memory transfers: what FX1E does to I and VF, the glyph address of FX29, and for
the transfers the bytes stored, the registers loaded, the frames and the fault past memory. -/

open Sys2Proof.Claims

namespace Sys2Proof

theorem decode_of_familyA {w : Word} (family : (opField w).toNat = 0xA) : decode w = .ok (.ldI (nnnField w)) := by
  simp [decode, family]

namespace Machine

/-! ### Load index and the glyph address (R95, R97) -/

/-- Settles O45: the top nibble of the word is its family, and the zero extension of NNN keeps its value. -/
theorem loadIndex : Obligations.LoadIndex := by
  refine ⟨fun w row => decode_of_familyA (opField_of_mask_F000 row), fun nnn s => ?_⟩
  exact ⟨_, rfl, BitVec.toNat_setWidth_of_le (by decide), rfl, sameMemory_of_eq rfl rfl⟩

/-- The glyph of the last digit starts below 4096 + 75, so the word-wide sum does not wrap. -/
theorem toNat_glyphAddr (c : Config) (d : Nibble) : (glyphAddr c d).toNat = c.fontBase.toNat + 5 * d.val := by
  have := c.fontBase.isLt
  have := d.isLt
  simp only [glyphAddr, BitVec.toNat_add, BitVec.toNat_setWidth, BitVec.toNat_ofNat]
  omega

/-- Settles O47, by whether the register holds a digit. -/
theorem fontAddress : Obligations.FontAddress := by
  intro x s
  refine ⟨fun digit => ?_, fun past => ?_⟩
  · have glyph := exec_ldF_of_digit (nibbleOfByte_some (k := ⟨_, Nat.lt_succ_of_le digit⟩).2 rfl)
    exact ⟨_, glyph, toNat_glyphAddr _ _, rfl, sameMemory_of_eq rfl rfl⟩
  · exact faultsWith_of_exec (exec_ldF_of_no_digit (nibbleOfByte_none.2 past))

/-! ### Add to index (R96) -/

theorem exec_addI (x : Nibble) (s : State) :
    exec (.addI x) s = .next (s.setI (s.I + (s.getV x).setWidth 16)).flagIndex := rfl

theorem toNat_word_add_byte (w : Word) (b : Byte) : (w + b.setWidth 16).toNat = (w.toNat + b.toNat) % 65536 := by
  rw [BitVec.toNat_add, BitVec.toNat_setWidth_of_le (by decide)]

theorem State.getV_vf_flagIndex (s : State) :
    s.flagIndex.getV vf =
      if s.cfg.flagIndexOverflow = true then
        if s.I.toNat > 0x0FFF then 1 else if s.cfg.fx1eClearsVf = true then 0 else s.getV vf
      else s.getV vf := by
  simp only [State.flagIndex, indexOverflow, decide_eq_true_eq, apply_ite (State.getV · vf), State.getV_setV_same]

theorem State.getV_flagIndex_of_ne (s : State) {r : Nibble} (hr : r ≠ vf) : s.flagIndex.getV r = s.getV r := by
  rcases s.flagIndex_cases with ⟨-, -, e⟩ | ⟨-, -, -, e⟩ | ⟨-, -, -, e⟩ | ⟨-, e⟩
  · rw [e, State.getV_setV_ne _ hr]
  · rw [e, State.getV_setV_ne _ hr]
  · rw [e]
  · rw [e]

/-- FX1E's flag is a write of V. -/
theorem State.flagIndex_eq (s : State) : s.flagIndex = { s with V := s.flagIndex.V } := by
  rw [State.mk.injEq]
  simp

/-- Settles O46: the flag tests the wrapped sum, and the configuration picks what is written at or below the ceiling. -/
theorem addToIndexFlagsTheCeiling : Obligations.AddToIndexFlagsTheCeiling := by
  intro x s
  refine ⟨_, exec_addI x s, ?_, fun flags above => ?_, fun flags inside clears => ?_, fun flags inside keeps => ?_,
    fun silent => ?_, fun r hr => ?_, ?_, ?_⟩
  · rw [State.flagIndex_I, State.setI_I, toNat_word_add_byte]
  · rw [State.flagIndex_I] at above
    rw [State.getV_vf_flagIndex, State.setI_cfg, if_pos flags, if_pos above]
  · rw [State.flagIndex_I] at inside
    rw [State.getV_vf_flagIndex, State.setI_cfg, if_pos flags, if_neg inside.not_gt, if_pos clears]
  · rw [State.flagIndex_I] at inside
    rw [State.getV_vf_flagIndex, State.setI_cfg, if_pos flags, if_neg inside.not_gt, keeps]
    rfl
  · rw [State.getV_vf_flagIndex, State.setI_cfg, silent]
    rfl
  · rw [State.getV_flagIndex_of_ne _ hr, State.setI_getV]
  · rw [State.flagIndex_I]
    exact State.flagIndex_eq _
  · exact sameMemory_of_eq (by simp) (by simp)

/-! ### Frames of the transfers -/

theorem State.writeBytes_eq (l : List (Nat × Byte)) (s : State) :
    State.writeBytes l s = { s with mem := (State.writeBytes l s).mem } := by
  rw [State.mk.injEq]
  simp

theorem State.loadRegs_eq (l : List Nibble) (s : State) :
    State.loadRegs l s = { s with V := (State.loadRegs l s).V } := by
  rw [State.mk.injEq]
  simp

/-- Byte writes at addresses of the block leave the rest of memory alone. -/
theorem sameMemoryOutside_writeBytes {l : List (Nat × Byte)} {s : State} {n : Nat}
    (within : ∀ p ∈ l, p.1 ∈ blockAddrs s.I n) : SameMemoryOutside s (State.writeBytes l s) n :=
  fun _ outside => State.readByte_writeBytes_ne l s fun p hp same =>
    outside (List.mem_map.2 ⟨p.1, within p hp, same⟩)

theorem toNat_indexAfterTransfer (s : State) (x : Nibble) :
    (indexAfterTransfer s x).toNat =
      if s.cfg.incrementIndexOnBlockTransfer = true then (s.I.toNat + x.val + 1) % 65536 else s.I.toNat := by
  have := x.isLt
  rw [indexAfterTransfer, apply_ite BitVec.toNat, BitVec.toNat_add, BitVec.toNat_ofNat]
  congr 1
  omega

/-! ### Decimal digits (R98) -/

theorem exec_ldB_of_inRange {x : Nibble} {s : State} (h : BlockInRange s 3) :
    exec (.ldB x) s = .next (State.writeBytes (bcdCells s (s.getV x)) s) :=
  withRange_ok (accessible_of_blockInRange h)

theorem bcdCells_eq (s : State) (v : Byte) :
    bcdCells s v = [(s.I.toNat, v / 100), (s.I.toNat + 1, v / 10 % 10), (s.I.toNat + 2, v % 10)] := rfl

theorem bcdCells_distinct (s : State) (v : Byte) : (bcdCells s v).Pairwise fun p q => cellOf p.1 ≠ cellOf q.1 := by
  have first : s.I.toNat % 4096 ≠ (s.I.toNat + 1) % 4096 := by omega
  have second : (s.I.toNat + 1) % 4096 ≠ (s.I.toNat + 2) % 4096 := by omega
  have third : s.I.toNat % 4096 ≠ (s.I.toNat + 2) % 4096 := by omega
  simp [bcdCells_eq, cellOf, first, second, third]

theorem State.readByte_writeBytes_bcdCells (s : State) {v b : Byte} {a : Nat} (h : (a, b) ∈ bcdCells s v) :
    (State.writeBytes (bcdCells s v) s).readByte a = b :=
  State.readByte_writeBytes_mem _ s (bcdCells_distinct s v) h

theorem bcdCells_within (s : State) (v : Byte) : ∀ p ∈ bcdCells s v, p.1 ∈ blockAddrs s.I 3 :=
  fun _ hp => (List.of_mem_zip hp).1

/-- Settles O48: the three addresses name different cells, so each keeps the digit written there. -/
theorem decimalDigitsAreStored : Obligations.DecimalDigitsAreStored := by
  intro x s h
  refine ⟨_, exec_ldB_of_inRange h, ?_, ?_, ?_, State.writeBytes_eq _ s,
    sameMemoryOutside_writeBytes (bcdCells_within s _)⟩
  · rw [State.readByte_writeBytes_bcdCells s (b := s.getV x / 100) (by simp [bcdCells_eq])]
    rfl
  · rw [State.readByte_writeBytes_bcdCells s (b := s.getV x / 10 % 10) (by simp [bcdCells_eq])]
    rfl
  · rw [State.readByte_writeBytes_bcdCells s (b := s.getV x % 10) (by simp [bcdCells_eq])]
    rfl

/-! ### Block transfers (R99, R100) -/

theorem storeCells_within (s : State) (x : Nibble) : ∀ p ∈ storeCells s x, p.1 ∈ blockAddrs s.I (x.val + 1) := by
  intro p hp
  obtain ⟨k, hk, rfl⟩ := List.mem_map.1 hp
  exact mem_blockAddrs.2 ⟨k.val, Nat.lt_succ_of_le (mem_regsUpTo.1 hk), rfl⟩

/-- Settles O49: the addresses of the block name different cells, and the quirk moves I. -/
theorem blockStore : Obligations.BlockStore := by
  intro x s h
  refine ⟨_, exec_store_of_inRange h, fun k hk => s.readByte_writeBytes_storeCells hk, toNat_indexAfterTransfer s x,
    ?_, sameMemoryOutside_writeBytes (storeCells_within s x)⟩
  exact congrArg (State.setI · _) (State.writeBytes_eq _ s)

/-- A load whose addresses can be accessed answers its effect (R100). -/
theorem exec_load_of_inRange {x : Nibble} {s : State} (h : BlockInRange s (x.val + 1)) :
    exec (.load x) s = .next ((State.loadRegs (regsUpTo x) s).setI (indexAfterTransfer s x)) :=
  withRange_ok (accessible_of_blockInRange h)

theorem State.getV_loadRegs_of_le (s : State) {x k : Nibble} (h : k ≤ x) :
    (State.loadRegs (regsUpTo x) s).getV k = s.readByte (s.I.toNat + k.val) := by
  rw [State.getV_loadRegs, if_pos (mem_regsUpTo.2 h)]

theorem State.getV_loadRegs_of_lt (s : State) {x k : Nibble} (h : x < k) :
    (State.loadRegs (regsUpTo x) s).getV k = s.getV k := by
  rw [State.getV_loadRegs, if_neg fun listed => h.not_ge (mem_regsUpTo.1 listed)]

/-- Settles O50: the registers up to X are those the load lists, and the quirk moves I. -/
theorem blockLoad : Obligations.BlockLoad := by
  intro x s h
  refine ⟨_, exec_load_of_inRange h, fun k hk => s.getV_loadRegs_of_le hk, fun k hk => s.getV_loadRegs_of_lt hk,
    toNat_indexAfterTransfer s x, ?_, sameMemory_of_eq (by simp) (by simp)⟩
  exact congrArg (State.setI · _) (State.loadRegs_eq _ s)

/-- Settles O52: the load reads at each address of the block what the store left there. -/
theorem storeThenLoadRestoresRegisters : Obligations.StoreThenLoadRestoresRegisters := by
  intro x s h
  refine ⟨_, exec_store_of_inRange h, fun u hcfg hmem hI => ?_⟩
  have same : SameMemory (State.writeBytes (storeCells s x) s) u := sameMemory_of_eq hmem hcfg
  have inRange : BlockInRange u (x.val + 1) := by
    rw [BlockInRange, hI, hcfg, State.setI_cfg, State.writeBytes_cfg]
    exact h
  refine ⟨_, exec_load_of_inRange inRange, fun k hk => ?_, fun k hk => u.getV_loadRegs_of_lt hk⟩
  rw [State.setI_getV, u.getV_loadRegs_of_le hk, hI, same, s.readByte_writeBytes_storeCells hk]

/-! ### Transfers past memory (R111, R113) -/

/-- The lowest address past memory of a block that reaches it is I, or 4096 when I lies inside. -/
theorem firstOutOfRange_block_past {c : Config} {base : Word} {n : Nat} (mode : c.memOob = .fault) (nonempty : 0 < n)
    (past : base.toNat + n > 4096) : firstOutOfRange c (blockAddrs base n) = some (max base.toNat 4096) := by
  have first : base.toNat + (4096 - base.toNat) = max base.toNat 4096 := by omega
  rw [← first]
  refine firstOutOfRange_block (by omega) (accessible_eq_false_of_fault mode (by omega)) fun j hj => ?_
  exact accessible_of_lt (by omega)

/-- An instruction that checks a block reaching past memory faults. -/
theorem faultsWith_of_past {i : Instr} {s effect : State} {n : Nat}
    (checks : exec i s = withRange (blockAddrs s.I n) i effect s) (mode : s.cfg.memOob = .fault) (nonempty : 0 < n)
    (past : s.I.toNat + n > 4096) : FaultsWith i s (.memoryOutOfRange (max s.I.toNat 4096)) :=
  faultsWith_of_exec (checks.trans (withRange_of_bad (firstOutOfRange_block_past mode nonempty past)))

/-- Settles O51: each transfer checks its block of addresses before its effect, a sprite the block of its drawn rows. -/
theorem outOfRangeTransfersFault : Obligations.OutOfRangeTransfersFault := by
  rintro x y n s _ mode rfl
  exact ⟨faultsWith_of_past rfl mode (by decide), faultsWith_of_past rfl mode (by simp),
    faultsWith_of_past rfl mode (by simp), faultsWith_of_past rfl mode⟩

end Machine

end Sys2Proof
end

section
/-! PROOFS. The double-draw law: what one draw leaves for a second draw of the same sprite to read, and what the second
one therefore does. -/

open Sys2Proof.Claims

namespace Sys2Proof.Machine

/-- The effect of a DXYN whose rows can be read (R102). -/
def State.draw (x y n : Nibble) (s : State) : State :=
  (State.plot (drawCells x y n s) s).setV vf (boolToByte (State.collides (drawCells x y n s) s))

theorem exec_drw_eq_draw {x y n : Nibble} {s : State}
    (h : BlockInRange s (visibleRows s y n) ∨ visibleRows s y n = 0) : exec (.drw x y n) s = .next (s.draw x y n) :=
  exec_drw_of_inRange h

/-! ### One draw -/

section
variable (x y n : Nibble) (s : State)

@[simp] theorem State.draw_cfg : (s.draw x y n).cfg = s.cfg := by simp [State.draw]
@[simp] theorem State.draw_I : (s.draw x y n).I = s.I := by simp [State.draw]
@[simp] theorem State.draw_readByte (a : Nat) : (s.draw x y n).readByte a = s.readByte a := by simp [State.draw]

theorem State.draw_feed : (s.draw x y n).feed = s.feed ++ drawEvents s x y n := by
  rw [State.draw, State.setV_feed, State.feed_plot (nodup_drawCells x y n s), drawEvents_eq_map]

theorem State.pixel_draw (j : Fin 2048) :
    (s.draw x y n).pixel j = if j ∈ drawCells x y n s then !s.pixel j else s.pixel j :=
  State.pixel_plot (nodup_drawCells x y n s) s j

theorem State.draw_getV_vf : (s.draw x y n).getV vf = boolToByte (State.collides (drawCells x y n s) s) :=
  State.getV_setV_same _ _ _

theorem length_drawEvents : (drawEvents s x y n).length = (drawCells x y n s).toFinset.card := by
  rw [drawEvents_eq_map, List.length_map, List.toFinset_card_of_nodup (nodup_drawCells x y n s)]

end

theorem State.draw_getV_ne {r : Nibble} (h : r ≠ vf) (x y n : Nibble) (s : State) :
    (s.draw x y n).getV r = s.getV r := by
  rw [State.draw, State.getV_setV_ne _ h, State.plot_getV]

theorem State.pixel_draw_of_covers {x y n : Nibble} {s : State} {col row : Nat} (h : Covers s x y n col row) :
    (s.draw x y n).pixel (cellIndex col row) = !s.pixel (cellIndex col row) := by
  rw [State.pixel_draw, if_pos (mem_drawCells_iff_covers.2 ⟨col, row, h, rfl⟩)]

/-! ### The flag of a draw -/

theorem boolToByte_eq_one {b : Bool} : boolToByte b = 1 ↔ b = true := by cases b <;> decide

theorem boolToByte_eq_zero {b : Bool} : boolToByte b = 0 ↔ b ≠ true := by cases b <;> decide

theorem boolToByte_ne_iff {a b : Bool} : boolToByte a ≠ boolToByte b ↔
    (boolToByte a = 1 ∨ boolToByte b = 1) ∧ (boolToByte b = 0 ∨ boolToByte a = 0) := by
  cases a <;> cases b <;> decide

theorem collides_drawCells_iff {x y n : Nibble} {s : State} : State.collides (drawCells x y n s) s = true ↔
    ∃ col row, Covers s x y n col row ∧ s.pixel (cellIndex col row) = true := by
  rw [State.collides_iff (nodup_drawCells x y n s)]
  constructor
  · rintro ⟨j, drawn, lit⟩
    obtain ⟨col, row, covered, rfl⟩ := mem_drawCells_iff_covers.1 drawn
    exact ⟨col, row, covered, lit⟩
  · rintro ⟨col, row, covered, lit⟩
    exact ⟨_, mem_drawCells_iff_covers.2 ⟨col, row, covered, rfl⟩, lit⟩

theorem State.draw_vf_eq_one {x y n : Nibble} {s : State} : (s.draw x y n).getV vf = 1 ↔
    ∃ col row, Covers s x y n col row ∧ s.pixel (cellIndex col row) = true := by
  rw [State.draw_getV_vf, boolToByte_eq_one, collides_drawCells_iff]

theorem State.draw_vf_eq_zero {x y n : Nibble} {s : State} : (s.draw x y n).getV vf = 0 ↔
    ∀ col row, Covers s x y n col row → s.pixel (cellIndex col row) = false := by
  rw [State.draw_getV_vf, boolToByte_eq_zero, ne_eq, collides_drawCells_iff]
  simp

/-! ### The second draw -/

section
variable {x y : Nibble} (hx : x ≠ vf) (hy : y ≠ vf) (n : Nibble) (s : State)
include hy

/-- A draw keeps what its range check reads. -/
theorem inRange_draw (h : BlockInRange s (visibleRows s y n) ∨ visibleRows s y n = 0) :
    BlockInRange (s.draw x y n) (visibleRows (s.draw x y n) y n) ∨ visibleRows (s.draw x y n) y n = 0 := by
  simpa only [BlockInRange, visibleRows, startY, State.draw_getV_ne hy, State.draw_I, State.draw_cfg] using h

include hx

/-- The sprite is in the same place with the same bits for the second draw: VF is neither of its registers. -/
theorem covers_draw {col row : Nat} : Covers (s.draw x y n) x y n col row ↔ Covers s x y n col row := by
  simp only [Covers, startX, startY, spriteBit, State.draw_getV_ne hx, State.draw_getV_ne hy, State.draw_I,
    State.draw_readByte]

theorem drawCells_draw : drawCells x y n (s.draw x y n) = drawCells x y n s := by
  have bytes : (s.draw x y n).readByte = s.readByte := funext (s.draw_readByte x y n)
  simp only [drawCells, spriteAddrs, State.draw_getV_ne hx, State.draw_getV_ne hy, State.draw_I, bytes]

/-- A cell is flipped by both draws or by none. -/
theorem fb_draw_draw : ((s.draw x y n).draw x y n).fb = s.fb := by
  refine Grid.ext_get fun j => ?_
  change ((s.draw x y n).draw x y n).pixel j = s.pixel j
  rw [State.pixel_draw, drawCells_draw hx hy, State.pixel_draw]
  by_cases drawn : j ∈ drawCells x y n s
  · simp [drawn]
  · simp [drawn]

/-- The second draw collides where the first found a clear cell. -/
theorem draw_draw_vf_eq_one : ((s.draw x y n).draw x y n).getV vf = 1 ↔
    ∃ col row, Covers s x y n col row ∧ s.pixel (cellIndex col row) = false := by
  simp only [State.draw_vf_eq_one, covers_draw hx hy]
  refine exists₂_congr fun col row => and_congr_right fun covered => ?_
  rw [State.pixel_draw_of_covers covered, Bool.not_eq_true']

theorem draw_draw_vf_eq_zero : ((s.draw x y n).draw x y n).getV vf = 0 ↔
    ∀ col row, Covers s x y n col row → s.pixel (cellIndex col row) = true := by
  simp only [State.draw_vf_eq_zero, covers_draw hx hy]
  refine forall₃_congr fun col row covered => ?_
  rw [State.pixel_draw_of_covers covered, Bool.not_eq_false']

/-- A covered cell is set before the first draw or before the second. -/
theorem exists_covers_iff_vf : (∃ col row, Covers s x y n col row) ↔
    (s.draw x y n).getV vf = 1 ∨ ((s.draw x y n).draw x y n).getV vf = 1 := by
  rw [State.draw_vf_eq_one, draw_draw_vf_eq_one hx hy]
  constructor
  · rintro ⟨col, row, covered⟩
    cases prior : s.pixel (cellIndex col row) with
    | true => exact .inl ⟨col, row, covered, prior⟩
    | false => exact .inr ⟨col, row, covered, prior⟩
  · rintro (⟨col, row, covered, -⟩ | ⟨col, row, covered, -⟩)
    · exact ⟨col, row, covered⟩
    · exact ⟨col, row, covered⟩

theorem vf_ne_iff : (s.draw x y n).getV vf ≠ ((s.draw x y n).draw x y n).getV vf ↔
    (∃ col row, Covers s x y n col row) ∧
      ((∀ col row, Covers s x y n col row → s.pixel (cellIndex col row) = true) ∨
        ∀ col row, Covers s x y n col row → s.pixel (cellIndex col row) = false) := by
  rw [exists_covers_iff_vf hx hy, ← draw_draw_vf_eq_zero hx hy, ← State.draw_vf_eq_zero, State.draw_getV_vf,
    State.draw_getV_vf]
  exact boolToByte_ne_iff

end

/-- Settles O55: the second draw toggles the cells of the first, each back to its prior value. -/
theorem drawingTwiceRestoresTheDisplay : Obligations.DrawingTwiceRestoresTheDisplay := by
  intro x y n s hx hy h
  refine ⟨s.draw x y n, (s.draw x y n).draw x y n, (drawCells x y n s).toFinset, exec_drw_eq_draw h,
    exec_drw_eq_draw (inRange_draw hy n s h), fun col row hc hr => ?_, fb_draw_draw hx hy n s, ?_,
    length_drawEvents x y n s, ?_, State.draw_vf_eq_one, State.draw_vf_eq_zero, draw_draw_vf_eq_one hx hy n s,
    draw_draw_vf_eq_zero hx hy n s, vf_ne_iff hx hy n s⟩
  · rw [List.mem_toFinset, cellIndex_mem_drawCells hc hr]
  · rw [State.draw_feed, State.draw_feed]
  · rw [length_drawEvents, drawCells_draw hx hy]

end Sys2Proof.Machine
end

section
/-! PROOFS. The timer transfers, and the key-wait over a run: a cycle at a key-wait that takes no release is the top of
that cycle, since the rewind undoes the fetch's advance. -/

open Sys2Proof.Claims

namespace Sys2Proof.Machine

/-! ### The timer transfers (R107, R108, R109) -/

/-- Settles O59: one register is written by FX07, and one timer by each of FX15 and FX18. -/
theorem timerTransfers : Obligations.TimerTransfers := by
  intro x s
  exact ⟨⟨_, rfl, State.getV_setV_same s x s.DT, onlyRegs_setV s x s.DT⟩,
    ⟨_, rfl, State.setDT_DT s _, rfl, sameMemory_of_eq rfl rfl⟩,
    ⟨_, rfl, State.setST_ST s _, rfl, sameMemory_of_eq rfl rfl⟩⟩

/-! ### The top of a cycle that takes no release (R65) -/

theorem State.beginCycle_inputs (s : State) : s.beginCycle.inputs = s.inputs.tail := by
  cases queue : s.inputs with
  | nil => rw [State.beginCycle_of_no_inputs queue]; exact queue
  | cons c rest => simp [State.beginCycle_of_inputs queue]

/-- The slot is kept when the coming cycle has no queued inputs, or queued inputs without a release. -/
theorem State.released_beginCycle_of_no_keyUp {s : State}
    (h : ∀ c ∈ s.inputs.head?, c.events.any isKeyUp = false) : s.beginCycle.released = s.released := by
  cases queue : s.inputs with
  | nil => rw [State.beginCycle_of_no_inputs queue]
  | cons c rest =>
    have silent : c.events.any isKeyUp = false := h c (by simp [queue])
    rw [State.beginCycle_of_inputs queue, State.released_drain_of_no_keyUp silent, State.pace_released]

/-! ### The key-wait over a run (R106) -/

/-- The rewind of the key-wait undoes the advance of its fetch. -/
theorem exec_ldVxK_advance {s : State} (x : Nibble) (h : s.released = none) :
    exec (.ldVxK x) s.advance = .next s := by
  have rewound : s.advance.setPc (s.advance.pc - 2) = s := by simp [State.advance, State.setPc]
  rw [exec_ldVxK_of_no_release (s := s.advance) h, rewound]

theorem step_of_keyWait {s : State} {x : Nibble} {w : Word} (running : s.fault = none) (fetched : s.fetchWord = .ok w)
    (decoded : decode w = .ok (.ldVxK x)) (empty : s.beginCycle.released = none) : step s = .next s.beginCycle := by
  rw [step_of_running running, fetched]
  exact (runWord_of_ok decoded _).trans (exec_ldVxK_advance x empty)

/-- Settles O58, by induction on the number of cycles: each is the top of its cycle, after which the same key-wait is
fetched with the slot still empty. -/
theorem keyWaitHoldsWithoutARelease : Obligations.KeyWaitHoldsWithoutARelease := by
  intro n x w s running empty fetched decoded silent
  induction n generalizing s with
  | zero => exact ⟨s, rfl, rfl, rfl, rfl, empty, running⟩
  | succ n ih =>
    have first : ∀ c ∈ s.inputs.head?, c.events.any isKeyUp = false := fun c hc =>
      silent c (List.mem_of_mem_head? (by rwa [List.head?_take, if_neg n.succ_ne_zero]))
    have later : ∀ c ∈ s.beginCycle.inputs.take n, c.events.any isKeyUp = false := fun c hc =>
      silent c (List.mem_of_mem_tail (by rwa [List.tail_take_eq_take_tail, ← State.beginCycle_inputs]))
    have kept : s.beginCycle.released = none := (State.released_beginCycle_of_no_keyUp first).trans empty
    rw [State.cycles_succ, step_of_keyWait running fetched decoded kept]
    simpa using ih s.beginCycle (s.beginCycle_fault.trans running) kept (s.beginCycle_fetchWord.trans fetched) later

end Sys2Proof.Machine
end

section
/-! PROOFS. The memory that construction leaves: the image at its addresses, and the font table or 0 elsewhere. -/

namespace Sys2Proof.Machine

/-! ### The cells of an image (R125) -/

theorem imageCells_eq_zipIdx (a : Nat) (image : List Byte) : imageCells a image = (image.zipIdx a).map Prod.swap := by
  induction image generalizing a with
  | nil => rfl
  | cons b rest ih => simp [imageCells, ih]

theorem map_fst_imageCells (a : Nat) (image : List Byte) :
    (imageCells a image).map Prod.fst = List.range' a image.length := by
  rw [imageCells_eq_zipIdx, List.map_map]
  exact List.zipIdx_map_snd a image

theorem mem_imageCells_of_getElem? (a : Nat) {j : Nat} {b : Byte} {image : List Byte} (h : image[j]? = some b) :
    (a + j, b) ∈ imageCells a image := by
  rw [imageCells_eq_zipIdx]
  exact List.mem_map.2 ⟨(b, a + j), List.mk_add_mem_zipIdx_iff_getElem?.2 h, rfl⟩

theorem address_of_mem_imageCells {a : Nat} {image : List Byte} {p : Nat × Byte} (h : p ∈ imageCells a image) :
    a ≤ p.1 ∧ p.1 < a + image.length := by
  rw [← List.mem_range'_1, ← map_fst_imageCells]
  exact List.mem_map_of_mem h

/-- No two bytes of an image that fits name one cell. -/
theorem imageCells_distinct {a : Nat} {image : List Byte} (fits : a + image.length ≤ 4096) :
    (imageCells a image).Pairwise fun p q => cellOf p.1 ≠ cellOf q.1 := by
  have rising : ((imageCells a image).map Prod.fst).Pairwise (· < ·) := by
    rw [map_fst_imageCells]
    exact List.pairwise_lt_range'
  refine (List.pairwise_map.1 rising).imp_of_mem fun {p q} hp hq below => ?_
  have := address_of_mem_imageCells hp
  have := address_of_mem_imageCells hq
  rw [cellOf_of_lt (by omega), cellOf_of_lt (by omega)]
  exact below.ne

/-! ### Reads of the written image -/

theorem State.readByte_of_lt (s : State) {a : Nat} (h : a < 4096) : s.readByte a = s.readCell a :=
  congrArg s.readCell (cellOf_of_lt h)

theorem State.readCell_writeBytes_imageCells (s : State) {a j : Nat} {b : Byte} {image : List Byte}
    (fits : a + image.length ≤ 4096) (h : image[j]? = some b) :
    (State.writeBytes (imageCells a image) s).readCell (a + j) = b := by
  obtain ⟨inside, -⟩ := List.getElem?_eq_some_iff.1 h
  rw [← State.readByte_of_lt _ (by omega)]
  exact State.readByte_writeBytes_mem _ s (imageCells_distinct fits) (mem_imageCells_of_getElem? a h)

theorem State.readCell_writeBytes_imageCells_outside (s : State) {a n : Nat} {image : List Byte}
    (fits : a + image.length ≤ 4096) (hn : n < 4096) (outside : n < a ∨ a + image.length ≤ n) :
    (State.writeBytes (imageCells a image) s).readCell n = s.readCell n := by
  rw [← State.readByte_of_lt _ hn, ← State.readByte_of_lt _ hn]
  refine State.readByte_writeBytes_ne _ s fun p hp => ?_
  have := address_of_mem_imageCells hp
  rw [cellOf_of_lt (by omega), cellOf_of_lt hn]
  omega

/-! ### The memory under the image (R124, R126) -/

/-- Nothing is listed in memory when construction starts to write the image. -/
theorem State.readCell_reset_withCfg (c : Config) (a : Nat) :
    ({ State.reset with cfg := c } : State).readCell a = background c a := rfl

/-- The 80 bytes of the font table end the range in which a cell can read as one of them. -/
theorem background_eq (c : Config) (a : Nat) :
    background c a =
      if c.fontLoaded = true ∧ c.fontBase.toNat ≤ a ∧ a < c.fontBase.toNat + 80
      then font.getD (a - c.fontBase.toNat) 0 else 0 := by
  by_cases inTable : a < c.fontBase.toNat + 80
  · simp [background, inTable]
  · have past : font.getD (a - c.fontBase.toNat) 0 = 0 :=
      List.getD_eq_default _ _ (show 80 ≤ a - c.fontBase.toNat by omega)
    rw [background, past, ite_self, if_neg fun ⟨_, _, below⟩ => inTable below]

/-- Settles O30: the image's cells hold its bytes, and every other cell reads as the start of construction left it. -/
theorem constructionLoadsTheImage : Obligations.ConstructionLoadsTheImage := by
  intro c image hc short
  have fits : 0x200 + image.length ≤ 4096 := by omega
  obtain ⟨s, constructed⟩ := exists_construct_eq_next_iff.2 ⟨hc, (imageFits_iff image).2 short⟩
  obtain ⟨-, rfl⟩ := construct_eq_next constructed
  refine ⟨_, constructed, State.writeBytes_eq _ _,
    fun j b h => State.readCell_writeBytes_imageCells _ fits h, fun a ha outside => ?_⟩
  rw [State.readCell_writeBytes_imageCells_outside _ fits ha outside, State.readCell_reset_withCfg, background_eq]

end Sys2Proof.Machine
end
